-- ==== Sys2Proof/Word.lean ====
section
/-! DEFINITION. The word types of the H4 reassembler block. Bits are numbered from 0 at the least significant end and
no value is sign-extended (spec/00_scope.md section 6). -/

namespace Sys2Proof

/-- One byte: the width of every access the block makes (R57). -/
abbrev Byte := BitVec 8

/-- A 16-bit value: a payload length, a write length, an opcode (R79, R80). -/
abbrev Half := BitVec 16

end Sys2Proof
end

