-- ==== Sys2Proof/Config.lean ====
section
/-! DEFINITION. What is fixed for the machine: the parameters of spec/00_scope.md R7, and the values the spec leaves
open, as opaque constants with no body. -/

namespace Sys2Proof

/-! Parameters with a value (R7). Four more are in the types of State: `UART_PARITY` is `Parity.none`, `HDR_BUF_SIZE` the
four entries of `HeaderBuffer`, `CNT_WIDTH` the 32 bits of S9 and S10, `TX_LEN_WIDTH` the 16 bits of `Half`. -/

/-- `UART_DATA_BITS`. -/
def Config.uartDataBits : Nat := 8
/-- `UART_STOP_BITS`. -/
def Config.uartStopBits : Nat := 1
/-- `SETTLE_MS`: no rule of the model depends on it (R250, log 17). -/
def Config.settleMs : Nat := 500
/-- `DEVWAKE_ACTIVE_LOW`: the reference polarity of the device-wake pin (R32). -/
def Config.devWakeActiveLow : Bool := true
/-- `TYPE_CMD`. PRESUMED by the spec itself (general knowledge, G1); unsafe; log 18. -/
def Config.typeCmd : Byte := 0x01
/-- `TYPE_ACL`. PRESUMED by the spec itself (general knowledge, G1); unsafe; log 18. -/
def Config.typeAcl : Byte := 0x02
/-- `TYPE_EVT`. -/
def Config.typeEvt : Byte := 0x04
/-- `HDR_LEN_CMD`. PRESUMED by the spec itself (general knowledge, G3); unsafe; log 18. -/
def Config.hdrLenCmd : Nat := 3
/-- `HDR_LEN_ACL`. PRESUMED by the spec itself (general knowledge, G4); unsafe; log 18. -/
def Config.hdrLenAcl : Nat := 4
/-- `HDR_LEN_EVT`. -/
def Config.hdrLenEvt : Nat := 2
/-- `EVT_CMD_COMPLETE`. -/
def Config.evtCmdComplete : Byte := 0x0E
/-- `VENDOR_OGF`. PRESUMED by the spec itself (general knowledge, G5); unsafe; log 18. -/
def Config.vendorOgf : BitVec 6 := 0x3F

/-! OPEN parameters (R7): arguments of the model, so constants about which nothing can be proved (log 10, safe). -/

/-- `BAUD` (D24). -/
opaque Config.baud : Nat
/-- `HW_FLOW` (D26, R168). -/
opaque Config.hwFlow : Bool
/-- `DEEP_SLEEP` (D25, R169). -/
opaque Config.deepSleep : Bool

/-! ENV draws (R8): free values, one for each value of the draw counter (log 5, safe). -/

/-- Whether the allocator grants the request (R9). -/
opaque Config.allocGrants : Nat → Bool
/-- The handle the allocator proposes for a granted request (R9). -/
opaque Config.allocHandle : Nat → Nat
/-- Whether the UART reports transmit-ready (R156). -/
opaque Config.uartReady : Nat → Bool
/-- Whether a receive interrupt is entered although `rx_fifo` is empty (R160, R163). -/
opaque Config.spuriousEntry : Nat → Bool

end Sys2Proof
end

