-- ==== Sys2Proof/Syntax.lean ====
section
/-! DEFINITION. The syntax: one constructor of `Instr` for each row of spec/opcode_table.json (52 rows in the four
formats of spec/30_encoding.md R84), the agents of R5, and the decoder's verdicts. -/

namespace Sys2Proof

/-- The agents of 00_scope.md R5. -/
inductive Agent where
  | thread | isr | env
deriving DecidableEq, Repr

/-- The four formats of the opcode table (R84). -/
inductive Format where
  | opTag | h4Type | rxSel | evtPattern
deriving DecidableEq, Repr

/-- Why the decoder reads no operation from a script. -/
inductive DecodeReject where
  /-- Nothing is left of the script: no operation is scheduled. -/
  | empty
  /-- The script ends inside an operation (R155: a `data` of another length than `length` is refused). -/
  | truncated
  /-- The tag matches no row of the table. Never given: the rows cover all 256 tags (R84). -/
  | unknownTag
deriving DecidableEq, Repr

/-- One constructor per row of spec/opcode_table.json, in the table's order. The argument of an unused tag or of an
invalid type is the part of the byte that the row's mask leaves open. -/
inductive Instr where
  -- format op_tag: the operations of R83
  | reset
  | init
  | initSettle
  | terminate
  | writeBegin (type : Byte) (length : Half) (data : List Byte)
  | writeByte
  | writeEnd
  | rxirqEnter
  | rxByte
  | rxirqExit
  | hostwakeFall
  | hostwakeExit
  | envRxArrive (b : Byte)
  | envHostwakeEdge
  -- format op_tag: the tags that name no operation (R83)
  | unusedTag04 (low : BitVec 2)
  | unusedTag08 (low : BitVec 3)
  | unusedTag13
  | unusedTag14 (low : BitVec 2)
  | unusedTag18 (low : BitVec 3)
  | unusedTag23
  | unusedTag24 (low : BitVec 2)
  | unusedTag28 (low : BitVec 3)
  | unusedTag32 (low : BitVec 1)
  | unusedTag34 (low : BitVec 2)
  | unusedTag38 (low : BitVec 3)
  | unusedTag42 (low : BitVec 1)
  | unusedTag44 (low : BitVec 2)
  | unusedTag48 (low : BitVec 3)
  | unusedTag50 (low : BitVec 4)
  | unusedTag60 (low : BitVec 5)
  | unusedTag80 (low : BitVec 7)
  -- format h4_type: the type byte of a frame (R72)
  | h4Cmd
  | h4Acl
  | h4Evt
  | h4SyncInvalid
  | h4Invalid00
  | h4Invalid05
  | h4Invalid06 (low : BitVec 1)
  | h4Invalid08 (low : BitVec 3)
  | h4Invalid10 (low : BitVec 4)
  | h4Invalid20 (low : BitVec 5)
  | h4Invalid40 (low : BitVec 6)
  | h4Invalid80 (low : BitVec 7)
  -- format rx_sel: the cases of `rx_step` (R112)
  | rxByteIdle
  | rxByteHeaderPartial
  | rxByteHeaderComplete
  | rxByteHeaderBadtype
  | rxByteDataMore
  | rxByteDataLast
  | rxByteError
  -- format evt_pattern: the Complete resolution (R130)
  | completeVendorCc
  | completePlain
deriving DecidableEq, Repr

/-- The format column of the table. -/
def Instr.format : Instr → Format
  | .reset | .init | .initSettle | .terminate | .writeBegin _ _ _ | .writeByte | .writeEnd => .opTag
  | .rxirqEnter | .rxByte | .rxirqExit | .hostwakeFall | .hostwakeExit => .opTag
  | .envRxArrive _ | .envHostwakeEdge => .opTag
  | .unusedTag04 _ | .unusedTag08 _ | .unusedTag13 | .unusedTag14 _ | .unusedTag18 _ | .unusedTag23 => .opTag
  | .unusedTag24 _ | .unusedTag28 _ | .unusedTag32 _ | .unusedTag34 _ | .unusedTag38 _ | .unusedTag42 _ => .opTag
  | .unusedTag44 _ | .unusedTag48 _ | .unusedTag50 _ | .unusedTag60 _ | .unusedTag80 _ => .opTag
  | .h4Cmd | .h4Acl | .h4Evt | .h4SyncInvalid | .h4Invalid00 | .h4Invalid05 => .h4Type
  | .h4Invalid06 _ | .h4Invalid08 _ | .h4Invalid10 _ | .h4Invalid20 _ | .h4Invalid40 _ | .h4Invalid80 _ => .h4Type
  | .rxByteIdle | .rxByteHeaderPartial | .rxByteHeaderComplete | .rxByteHeaderBadtype => .rxSel
  | .rxByteDataMore | .rxByteDataLast | .rxByteError => .rxSel
  | .completeVendorCc | .completePlain => .evtPattern

/-- The agent column of R83. An unused tag names no operation and so has no agent; the frame, selection and pattern
rows are parts of `RX_BYTE`, a step of ISR. -/
def Instr.agent : Instr → Option Agent
  | .reset | .envRxArrive _ | .envHostwakeEdge => some .env
  | .init | .initSettle | .terminate | .writeBegin _ _ _ | .writeByte | .writeEnd => some .thread
  | .rxirqEnter | .rxByte | .rxirqExit | .hostwakeFall | .hostwakeExit => some .isr
  | .unusedTag04 _ | .unusedTag08 _ | .unusedTag13 | .unusedTag14 _ | .unusedTag18 _ | .unusedTag23 => none
  | .unusedTag24 _ | .unusedTag28 _ | .unusedTag32 _ | .unusedTag34 _ | .unusedTag38 _ | .unusedTag42 _ => none
  | .unusedTag44 _ | .unusedTag48 _ | .unusedTag50 _ | .unusedTag60 _ | .unusedTag80 _ => none
  | .h4Cmd | .h4Acl | .h4Evt | .h4SyncInvalid | .h4Invalid00 | .h4Invalid05 => some .isr
  | .h4Invalid06 _ | .h4Invalid08 _ | .h4Invalid10 _ | .h4Invalid20 _ | .h4Invalid40 _ | .h4Invalid80 _ => some .isr
  | .rxByteIdle | .rxByteHeaderPartial | .rxByteHeaderComplete | .rxByteHeaderBadtype => some .isr
  | .rxByteDataMore | .rxByteDataLast | .rxByteError => some .isr
  | .completeVendorCc | .completePlain => some .isr

/-- A row of the table in format op_tag: the row holds for a tag byte `t` when `t AND mask = pattern`; `parse` reads
the rest of the operation. -/
structure TagRow where
  pattern : Byte
  mask : Byte
  parse : Byte → List Byte → Except DecodeReject (Instr × List Byte)

/-- A row of the table in format h4_type. -/
structure TypeRow where
  pattern : Byte
  mask : Byte
  instr : Byte → Instr

end Sys2Proof
end

