-- ==== Sys2Proof/WellFormed.lean ====
section
/-! DEFINITION. Which instructions are well formed. The one check of the spec is R155's: the `data` of a `WRITE_BEGIN`
has exactly `length` bytes. Every other operand may hold every value of its width. -/

namespace Sys2Proof

/-- R155: "`data`: a list of exactly `length` bytes". -/
def Instr.wf : Instr → Bool
  | .writeBegin _ length data => data.length == length.toNat
  | .reset | .init | .initSettle | .terminate | .writeByte | .writeEnd => true
  | .rxirqEnter | .rxByte | .rxirqExit | .hostwakeFall | .hostwakeExit => true
  | .envRxArrive _ | .envHostwakeEdge => true
  | .unusedTag04 _ | .unusedTag08 _ | .unusedTag13 | .unusedTag14 _ | .unusedTag18 _ | .unusedTag23 => true
  | .unusedTag24 _ | .unusedTag28 _ | .unusedTag32 _ | .unusedTag34 _ | .unusedTag38 _ | .unusedTag42 _ => true
  | .unusedTag44 _ | .unusedTag48 _ | .unusedTag50 _ | .unusedTag60 _ | .unusedTag80 _ => true
  | .h4Cmd | .h4Acl | .h4Evt | .h4SyncInvalid | .h4Invalid00 | .h4Invalid05 => true
  | .h4Invalid06 _ | .h4Invalid08 _ | .h4Invalid10 _ | .h4Invalid20 _ | .h4Invalid40 _ | .h4Invalid80 _ => true
  | .rxByteIdle | .rxByteHeaderPartial | .rxByteHeaderComplete | .rxByteHeaderBadtype => true
  | .rxByteDataMore | .rxByteDataLast | .rxByteError => true
  | .completeVendorCc | .completePlain => true

end Sys2Proof
end

