-- ==== Sys2Proof/Decode.lean ====
section
/-! DEFINITION. The encoding of spec/30_encoding.md: the decoder of a script (R83, R85), the decoder of a type byte
(R72), and after them the encoder. Both decoders are tables of rows, one row per row of spec/opcode_table.json, in its
order. -/

namespace Sys2Proof

/-! ## Byte order -/

/-- R60: a 16-bit field is `{byte[k+1], byte[k]}`, the lower offset less significant. -/
def halfLE (lo hi : Byte) : Half := hi ++ lo

/-- The byte at the lower offset of a 16-bit field. -/
def loByte (h : Half) : Byte := h.extractLsb' 0 8

/-- The byte at the higher offset of a 16-bit field. -/
def hiByte (h : Half) : Byte := h.extractLsb' 8 8

/-! ## The operation tags -/

/-- An operation that is its tag byte alone (R85). -/
def oneByte (i : Instr) (rest : List Byte) : Except DecodeReject (Instr × List Byte) := .ok (i, rest)

/-- `WRITE_BEGIN` after its tag: `type len_lo len_hi d0 … d(length−1)` (R85). A script that ends inside the data is
refused (R155, log 20). -/
def parseWriteBegin : List Byte → Except DecodeReject (Instr × List Byte)
  | t :: lo :: hi :: rest =>
    if (halfLE lo hi).toNat ≤ rest.length then
      .ok (.writeBegin t (halfLE lo hi) (rest.take (halfLE lo hi).toNat), rest.drop (halfLE lo hi).toNat)
    else .error .truncated
  | _ => .error .truncated

/-- `ENV_RX_ARRIVE` after its tag: `b` (R85). -/
def parseRxArrive : List Byte → Except DecodeReject (Instr × List Byte)
  | b :: rest => .ok (.envRxArrive b, rest)
  | [] => .error .truncated

/-- The rows of the 14 operations (R83). -/
def operationRows : List TagRow :=
  [⟨0x00, 0xFF, fun _ => oneByte .reset⟩,
   ⟨0x01, 0xFF, fun _ => oneByte .init⟩,
   ⟨0x02, 0xFF, fun _ => oneByte .initSettle⟩,
   ⟨0x03, 0xFF, fun _ => oneByte .terminate⟩,
   ⟨0x10, 0xFF, fun _ => parseWriteBegin⟩,
   ⟨0x11, 0xFF, fun _ => oneByte .writeByte⟩,
   ⟨0x12, 0xFF, fun _ => oneByte .writeEnd⟩,
   ⟨0x20, 0xFF, fun _ => oneByte .rxirqEnter⟩,
   ⟨0x21, 0xFF, fun _ => oneByte .rxByte⟩,
   ⟨0x22, 0xFF, fun _ => oneByte .rxirqExit⟩,
   ⟨0x30, 0xFF, fun _ => oneByte .hostwakeFall⟩,
   ⟨0x31, 0xFF, fun _ => oneByte .hostwakeExit⟩,
   ⟨0x40, 0xFF, fun _ => parseRxArrive⟩,
   ⟨0x41, 0xFF, fun _ => oneByte .envHostwakeEdge⟩]

/-- The rows of the tags that name no operation (R83, R84). -/
def unusedTagRows : List TagRow :=
  [⟨0x04, 0xFC, fun t => oneByte (.unusedTag04 (t.extractLsb' 0 2))⟩,
   ⟨0x08, 0xF8, fun t => oneByte (.unusedTag08 (t.extractLsb' 0 3))⟩,
   ⟨0x13, 0xFF, fun _ => oneByte .unusedTag13⟩,
   ⟨0x14, 0xFC, fun t => oneByte (.unusedTag14 (t.extractLsb' 0 2))⟩,
   ⟨0x18, 0xF8, fun t => oneByte (.unusedTag18 (t.extractLsb' 0 3))⟩,
   ⟨0x23, 0xFF, fun _ => oneByte .unusedTag23⟩,
   ⟨0x24, 0xFC, fun t => oneByte (.unusedTag24 (t.extractLsb' 0 2))⟩,
   ⟨0x28, 0xF8, fun t => oneByte (.unusedTag28 (t.extractLsb' 0 3))⟩,
   ⟨0x32, 0xFE, fun t => oneByte (.unusedTag32 (t.extractLsb' 0 1))⟩,
   ⟨0x34, 0xFC, fun t => oneByte (.unusedTag34 (t.extractLsb' 0 2))⟩,
   ⟨0x38, 0xF8, fun t => oneByte (.unusedTag38 (t.extractLsb' 0 3))⟩,
   ⟨0x42, 0xFE, fun t => oneByte (.unusedTag42 (t.extractLsb' 0 1))⟩,
   ⟨0x44, 0xFC, fun t => oneByte (.unusedTag44 (t.extractLsb' 0 2))⟩,
   ⟨0x48, 0xF8, fun t => oneByte (.unusedTag48 (t.extractLsb' 0 3))⟩,
   ⟨0x50, 0xF0, fun t => oneByte (.unusedTag50 (t.extractLsb' 0 4))⟩,
   ⟨0x60, 0xE0, fun t => oneByte (.unusedTag60 (t.extractLsb' 0 5))⟩,
   ⟨0x80, 0x80, fun t => oneByte (.unusedTag80 (t.extractLsb' 0 7))⟩]

/-- Every row of format op_tag. Exactly one of them holds for each tag byte (R84). -/
def opTagRows : List TagRow := operationRows ++ unusedTagRows

/-- Whether a row holds for a tag byte. -/
def tagMatches (t : Byte) (row : TagRow) : Bool := t &&& row.mask == row.pattern

/-- The next operation of a script and what is left of the script (R85: the length is known from the tag and, for
`WRITE_BEGIN`, from `length`). A tag that names no operation is read as its table row, which `exec` refuses. -/
def decode : List Byte → Except DecodeReject (Instr × List Byte)
  | [] => .error .empty
  | t :: rest =>
    match opTagRows.find? (tagMatches t) with
    | some row => row.parse t rest
    | none => .error .unknownTag

/-! ## The type byte of a frame -/

/-- The rows of format h4_type (R72). -/
def h4TypeRows : List TypeRow :=
  [⟨Config.typeCmd, 0xFF, fun _ => .h4Cmd⟩,
   ⟨Config.typeAcl, 0xFF, fun _ => .h4Acl⟩,
   ⟨Config.typeEvt, 0xFF, fun _ => .h4Evt⟩,
   ⟨0x03, 0xFF, fun _ => .h4SyncInvalid⟩,
   ⟨0x00, 0xFF, fun _ => .h4Invalid00⟩,
   ⟨0x05, 0xFF, fun _ => .h4Invalid05⟩,
   ⟨0x06, 0xFE, fun t => .h4Invalid06 (t.extractLsb' 0 1)⟩,
   ⟨0x08, 0xF8, fun t => .h4Invalid08 (t.extractLsb' 0 3)⟩,
   ⟨0x10, 0xF0, fun t => .h4Invalid10 (t.extractLsb' 0 4)⟩,
   ⟨0x20, 0xE0, fun t => .h4Invalid20 (t.extractLsb' 0 5)⟩,
   ⟨0x40, 0xC0, fun t => .h4Invalid40 (t.extractLsb' 0 6)⟩,
   ⟨0x80, 0x80, fun t => .h4Invalid80 (t.extractLsb' 0 7)⟩]

/-- Whether a row holds for a type byte. -/
def typeMatches (t : Byte) (row : TypeRow) : Bool := t &&& row.mask == row.pattern

/-- The row of a type byte. `none` is never given: the rows cover all 256 values (R84). -/
def decodeType (t : Byte) : Option Instr := (h4TypeRows.find? (typeMatches t)).map (fun row => row.instr t)

/-! ## The encoder -/

/-- The type byte of a row of format h4_type, and `none` for every other row. -/
def encodeType : Instr → Option Byte
  | .h4Cmd => some Config.typeCmd
  | .h4Acl => some Config.typeAcl
  | .h4Evt => some Config.typeEvt
  | .h4SyncInvalid => some 0x03
  | .h4Invalid00 => some 0x00
  | .h4Invalid05 => some 0x05
  | .h4Invalid06 low => some (0x03#7 ++ low)
  | .h4Invalid08 low => some (0x01#5 ++ low)
  | .h4Invalid10 low => some (0x1#4 ++ low)
  | .h4Invalid20 low => some (0x1#3 ++ low)
  | .h4Invalid40 low => some (0x1#2 ++ low)
  | .h4Invalid80 low => some (0x1#1 ++ low)
  | _ => none

/-- The bytes of an instruction. For format op_tag these are the bytes of a script (R85); for h4_type the type byte of
the frame; for rx_sel and evt_pattern the tag 0x21 of `RX_BYTE`, of which they are cases (R84). -/
def encode : Instr → List Byte
  | .reset => [0x00]
  | .init => [0x01]
  | .initSettle => [0x02]
  | .terminate => [0x03]
  | .writeBegin t len data => 0x10 :: t :: loByte len :: hiByte len :: data
  | .writeByte => [0x11]
  | .writeEnd => [0x12]
  | .rxirqEnter => [0x20]
  | .rxByte => [0x21]
  | .rxirqExit => [0x22]
  | .hostwakeFall => [0x30]
  | .hostwakeExit => [0x31]
  | .envRxArrive b => [0x40, b]
  | .envHostwakeEdge => [0x41]
  | .unusedTag04 low => [0x01#6 ++ low]
  | .unusedTag08 low => [0x01#5 ++ low]
  | .unusedTag13 => [0x13]
  | .unusedTag14 low => [0x05#6 ++ low]
  | .unusedTag18 low => [0x03#5 ++ low]
  | .unusedTag23 => [0x23]
  | .unusedTag24 low => [0x09#6 ++ low]
  | .unusedTag28 low => [0x05#5 ++ low]
  | .unusedTag32 low => [0x19#7 ++ low]
  | .unusedTag34 low => [0x0D#6 ++ low]
  | .unusedTag38 low => [0x07#5 ++ low]
  | .unusedTag42 low => [0x21#7 ++ low]
  | .unusedTag44 low => [0x11#6 ++ low]
  | .unusedTag48 low => [0x09#5 ++ low]
  | .unusedTag50 low => [0x5#4 ++ low]
  | .unusedTag60 low => [0x3#3 ++ low]
  | .unusedTag80 low => [0x1#1 ++ low]
  | .h4Cmd => [Config.typeCmd]
  | .h4Acl => [Config.typeAcl]
  | .h4Evt => [Config.typeEvt]
  | .h4SyncInvalid => [0x03]
  | .h4Invalid00 => [0x00]
  | .h4Invalid05 => [0x05]
  | .h4Invalid06 low => [0x03#7 ++ low]
  | .h4Invalid08 low => [0x01#5 ++ low]
  | .h4Invalid10 low => [0x1#4 ++ low]
  | .h4Invalid20 low => [0x1#3 ++ low]
  | .h4Invalid40 low => [0x1#2 ++ low]
  | .h4Invalid80 low => [0x1#1 ++ low]
  | .rxByteIdle | .rxByteHeaderPartial | .rxByteHeaderComplete | .rxByteHeaderBadtype => [0x21]
  | .rxByteDataMore | .rxByteDataLast | .rxByteError => [0x21]
  | .completeVendorCc | .completePlain => [0x21]

/-! ## An instruction given as a number, as the host numbers its bits -/

/-- How many bytes the operation at the head of a script has (R85), a byte the script lacks read as 0. -/
def opLength (bytes : List Byte) : Nat :=
  if bytes.getD 0 0 = 0x10 then 4 + (halfLE (bytes.getD 2 0) (bytes.getD 3 0)).toNat
  else if bytes.getD 0 0 = 0x40 then 2
  else 1

/-- The `n` lowest bytes of `w`, the least significant first. -/
def bytesOfNat : Nat → Nat → List Byte
  | 0, _ => []
  | n + 1, w => BitVec.ofNat 8 w :: bytesOfNat n (w / 256)

/-- The bytes of the instruction whose lowest `nbits` bits are `w` and whose other bits are 0. -/
def wordBytes (nbits w : Nat) : List Byte :=
  bytesOfNat (nbits / 8) w ++ List.replicate (opLength (bytesOfNat (nbits / 8) w) - nbits / 8) 0

/-- The operation the decoder reads from the word `w` of `nbits` bits. A word of the formats h4_type, rx_sel and
evt_pattern is read as the op_tag row that has the same word (log 12, 13). -/
def decodeTableWord (nbits w : Nat) : Option Instr :=
  match decode (wordBytes nbits w) with
  | .ok (i, _) => some i
  | .error _ => none

end Sys2Proof
end

