-- ==== Sys2Proof/Machine/State.lean ====
section
/-! DEFINITION. The state of the block: S1 to S24 and E1 to E3 of spec/10_state.md, and the model's own fields (the
script and the ENV draws). State is plain data. -/

namespace Sys2Proof.Machine

/-- S1 `rx_state` (R22). The codes 5 to 7, never held, cannot be written. -/
inductive RxState where
  | idle | header | data | complete | error
deriving DecidableEq, Repr

/-- S11 `init_state` (R31). -/
inductive InitState where
  | uninit | settling | ready
deriving DecidableEq, Repr

/-- S17 `isr_phase` (R31): `NONE`, `RX`, `HW`. -/
inductive IsrPhase where
  | none | rx | hostWake
deriving DecidableEq, Repr

/-- S19 `tx_phase` (R31). -/
inductive TxPhase where
  | idle | type | data | done
deriving DecidableEq, Repr

/-- The three valid packet types (R73). -/
inductive PacketType where
  | command | aclData | event
deriving DecidableEq, Repr

/-- The two allocation pools (R9). -/
inductive Pool where
  | acl | msg
deriving DecidableEq, Repr

/-- The parity settings the spec names: "no parity" (R7). -/
inductive Parity where
  | none
deriving DecidableEq, Repr

/-- S12: the record `{baud, data_bits, parity, stop_bits, flow}` (R31, R150). -/
structure UartCfg where
  baud : Nat
  dataBits : Nat
  parity : Parity
  stopBits : Nat
  flow : Bool
deriving DecidableEq, Repr

/-- S3 `hdr_buf[0..3]` (R22, R23). -/
structure HeaderBuffer where
  b0 : Byte
  b1 : Byte
  b2 : Byte
  b3 : Byte
deriving DecidableEq, Repr

/-- The two fault codes of R200. -/
inductive FaultCode where
  | writeBeforeInit | initTwice
deriving DecidableEq, Repr

/-- S24 `faults`: a set of fault codes, one Bool for each code, so that equal sets are equal data. -/
structure FaultSet where
  writeBeforeInit : Bool
  initTwice : Bool
deriving DecidableEq, Repr

/-- The answer of the allocator port (R9). -/
inductive AllocAnswer where
  | ok (h : Nat)
  | fail
deriving DecidableEq, Repr

/-- What a vendor Command-Complete event hands to `Inject` (R133). -/
structure VendorResponse where
  opcode : Half
  status : Byte
  dataLen : Byte
  data : List Byte
deriving DecidableEq, Repr

/-- The events of R6. -/
inductive Event where
  | uartConfig (cfg : UartCfg)
  | txByte (b : Byte)
  | devWake (level : Bool)
  | sleepLock
  | sleepUnlock
  | alloc (pool : Pool) (size : BitVec 17) (answer : AllocAnswer)
  | free (h : Nat)
  | inject (opcode : Half) (status : Byte) (dataLen : Byte) (data : List Byte)
  | deliver (type : Byte) (bytes : List Byte)
  | writeReturn (n : Half)
  | fault (code : FaultCode)
deriving DecidableEq, Repr

/-- One Packet Buffer the block owns (R50 b, R52): its handle (an opaque value of the allocator port, R63), its size,
and the bytes written so far, each at its offset. An offset with no cell has not been written and holds no value. -/
structure PacketBuffer where
  handle : Nat
  size : BitVec 17
  cells : List Host.Cell
deriving DecidableEq, Repr

/-- E3 `mem` (R36): the Packet Buffers the block owns, handles strictly rising. -/
abbrev Memory := List PacketBuffer

/-- The whole state. -/
structure State where
  /-- S1 -/
  rxState : RxState
  /-- S2 -/
  pktType : Byte
  /-- S3 -/
  hdrBuf : HeaderBuffer
  /-- S4 -/
  hdrCursor : BitVec 3
  /-- S5 -/
  countdown : BitVec 16
  /-- S6: `none` is the spec's own value (no buffer held). -/
  pktBuf : Option Nat
  /-- S7 -/
  pktSize : BitVec 17
  /-- S8 -/
  wrCursor : BitVec 17
  /-- S9 -/
  badTypeCount : BitVec 32
  /-- S10 -/
  allocFailCount : BitVec 32
  /-- S11 -/
  initState : InitState
  /-- S12: `none` is the spec's own value (not configured). -/
  uartCfg : Option UartCfg
  /-- S13 -/
  rxIrqArmed : Bool
  /-- S14 -/
  hwIrqArmed : Bool
  /-- S15: the logical level (R32). -/
  devWake : Bool
  /-- S16 -/
  sleepLocked : Bool
  /-- S17 -/
  isrPhase : IsrPhase
  /-- S18 -/
  hwPending : Bool
  /-- S19 -/
  txPhase : TxPhase
  /-- S20 -/
  txType : Byte
  /-- S21 -/
  txLen : Half
  /-- S22 -/
  txIdx : Half
  /-- S23 -/
  txData : List Byte
  /-- S24 -/
  faults : FaultSet
  /-- E1 -/
  rxFifo : List Byte
  /-- E2 -/
  trace : List Event
  /-- E3 -/
  mem : Memory
  /-- The model's own: the encoded operations still to be performed (R85). -/
  script : List Byte
  /-- The model's own: recorded answers of `Alloc`, the next one first (R85 `ALLOC_ANSWER`). -/
  allocDraws : List AllocAnswer
  /-- The model's own: recorded transmit-ready answers (R8, R156). -/
  readyDraws : List Bool
  /-- The model's own: recorded spurious-entry answers (R8, R160). -/
  spuriousDraws : List Bool
  /-- The model's own: the argument of the next opaque draw. -/
  drawCount : Nat
deriving DecidableEq, Repr

/-- Why the model stops with a fault. Every one is SAFE: the spec says that the case cannot arise (its invariants R27
and R28), gives it no effect, and no step from a state that meets those invariants raises it (log 9). None is a fault of
R200, which is a next state. -/
inductive Fault where
  /-- `header_byte` would write outside `hdr_buf[0..3]` (R51). Raised by RX_BYTE in HEADER; safe. -/
  | headerIndex
  /-- `data_byte` with `pkt_buf = none` (R110). Raised by RX_BYTE in DATA; safe. -/
  | noPacketBuffer
  /-- `data_byte` with `countdown = 0` (R110). Raised by RX_BYTE in DATA; safe. -/
  | countdownZero
  /-- A `MemWrite` that R11 does not allow, or a `MemRead` of an offset nothing has written (R54). Raised by RX_BYTE
  and by the Complete resolution; safe. -/
  | bufferAccess (h : Nat)
  /-- `rx_step` with `rx_state = COMPLETE`, for which R112 has no case (R28). Raised by RX_BYTE; safe. -/
  | completeAtStart
  /-- `write_byte` with `tx_idx` outside `tx_data` (R156). Raised by WRITE_BYTE; safe. -/
  | txIndex
deriving DecidableEq, Repr

/-- Why the model refuses. -/
inductive Refusal where
  /-- An instruction with no meaning yet. Raised by an arm of `exec`; safe. -/
  | notModelled (mnemonic : String)
  /-- The script holds no readable operation (R83, R155: a verdict of the decoder, not a step). Raised by `step`; safe. -/
  | undecodable (r : DecodeReject)
  /-- A tag that names no operation (R83: "A model that receives one refuses it"). Raised by the unused-tag rows; safe. -/
  | unusedTag (tag : Byte)
deriving DecidableEq, Repr

/-- What a step answers. -/
abbrev Result := Host.Outcome State Fault Refusal

/-- The state after reset (R230). S2, S3, S20 and S21 have no value in the spec and are zero here: DESIGN CHOICE,
unsafe, log 4. The model's own fields: DESIGN CHOICE, log 1 and 5. -/
def State.reset : State where
  rxState := .idle
  pktType := 0
  hdrBuf := ⟨0, 0, 0, 0⟩
  hdrCursor := 0
  countdown := 0
  pktBuf := none
  pktSize := 0
  wrCursor := 0
  badTypeCount := 0
  allocFailCount := 0
  initState := .uninit
  uartCfg := none
  rxIrqArmed := false
  hwIrqArmed := false
  devWake := true
  sleepLocked := false
  isrPhase := .none
  hwPending := false
  txPhase := .idle
  txType := 0
  txLen := 0
  txIdx := 0
  txData := []
  faults := ⟨false, false⟩
  rxFifo := []
  trace := []
  mem := []
  script := []
  allocDraws := []
  readyDraws := []
  spuriousDraws := []
  drawCount := 0

end Sys2Proof.Machine
end

