-- ==== Sys2Proof/Machine/Operands.lean ====
section
/-! DEFINITION. The operand forms: the numeric codes of the state elements, the packet types with their header formats
(spec/30_encoding.md R72 to R79), the opcode and the fields of a Command-Complete event (R80, R81, 41_rx_completion.md
R131 to R133). -/

namespace Sys2Proof.Machine

/-! ## Codes (R22, R31, R200, R202) -/

/-- The 3-bit code of `rx_state` (R22). -/
def RxState.code : RxState → BitVec 3
  | .idle => 0 | .header => 1 | .data => 2 | .complete => 3 | .error => 4

/-- The 2-bit code of `init_state` (R31). -/
def InitState.code : InitState → BitVec 2
  | .uninit => 0 | .settling => 1 | .ready => 2

/-- The 2-bit code of `isr_phase` (R31). -/
def IsrPhase.code : IsrPhase → BitVec 2
  | .none => 0 | .rx => 1 | .hostWake => 2

/-- The 2-bit code of `tx_phase` (R31). -/
def TxPhase.code : TxPhase → BitVec 2
  | .idle => 0 | .type => 1 | .data => 2 | .done => 3

/-- The code of a fault (R200). -/
def FaultCode.code : FaultCode → Byte
  | .writeBeforeInit => 0x01 | .initTwice => 0x02

/-- The error conditions of R202. Neither is a fault; each has a counter as its only record. -/
inductive ErrorCondition where
  | badType | allocFail
deriving DecidableEq, Repr

/-- The code of an error condition (R202). It appears in no event. -/
def ErrorCondition.code : ErrorCondition → Byte
  | .badType => 0x10 | .allocFail => 0x11

/-- The counter of an error condition (R202). -/
def ErrorCondition.counter (s : State) : ErrorCondition → BitVec 32
  | .badType => s.badTypeCount | .allocFail => s.allocFailCount

/-! ## The type byte -/

/-- The packet type of a type byte; `none` for an invalid type (R72, R73). -/
def packetType? (t : Byte) : Option PacketType :=
  if t = Config.typeCmd then some .command
  else if t = Config.typeAcl then some .aclData
  else if t = Config.typeEvt then some .event
  else none

/-- R73: `valid(t)`. -/
def validType (t : Byte) : Bool := (packetType? t).isSome

/-- R74: `hdr_len(t)`. -/
def PacketType.hdrLen : PacketType → Nat
  | .command => Config.hdrLenCmd
  | .aclData => Config.hdrLenAcl
  | .event => Config.hdrLenEvt

/-- The pool of R9 and R105: `ACL_POOL` for ACL-Data, `MSG_POOL` for every other type. -/
def PacketType.pool : PacketType → Pool
  | .aclData => .acl
  | .command | .event => .msg

/-- R79: `len_field(t, hdr)`. -/
def PacketType.lenField (hdr : HeaderBuffer) : PacketType → Half
  | .command => hdr.b2.zeroExtend 16
  | .aclData => halfLE hdr.b2 hdr.b3
  | .event => hdr.b1.zeroExtend 16

/-- R55, R105: `hdr_len + payload_length`, exact in 17 bits. -/
def PacketType.bufferSize (len : Half) (t : PacketType) : BitVec 17 :=
  BitVec.ofNat 17 t.hdrLen + len.zeroExtend 17

/-! ## The Header Buffer -/

/-- `hdr_buf[i] <- b`; `none` outside 0 to 3 (R51). -/
def HeaderBuffer.write (hdr : HeaderBuffer) (i : Nat) (b : Byte) : Option HeaderBuffer :=
  match i with
  | 0 => some { hdr with b0 := b }
  | 1 => some { hdr with b1 := b }
  | 2 => some { hdr with b2 := b }
  | 3 => some { hdr with b3 := b }
  | _ => none

/-- The header bytes in arrival order. -/
def HeaderBuffer.bytes (hdr : HeaderBuffer) : List Byte := [hdr.b0, hdr.b1, hdr.b2, hdr.b3]

/-! ## The opcode and the Command-Complete event -/

/-- R80: `OGF(op) = op[15:10]`. -/
def ogf (op : Half) : BitVec 6 := op.extractLsb' 10 6

/-- R80: `OCF(op) = op[9:0]`. -/
def ocf (op : Half) : BitVec 10 := op.extractLsb' 0 10

/-- R80: an opcode is vendor-specific when its OGF is `VENDOR_OGF`. -/
def vendorOpcode (op : Half) : Bool := ogf op == Config.vendorOgf

/-- R131 to R133: what a packet hands to `Inject`, and `none` when it is no vendor Command-Complete event. The packet is
`event_code :: param_len :: num :: opcode_lo :: opcode_hi :: status :: data` (R81), so a packet shorter than six bytes is
none; under R131 (c) and R55 an Event is never shorter. -/
def vendorCc? (t : Byte) : List Byte → Option VendorResponse
  | code :: len :: _ :: lo :: hi :: status :: data =>
    if t = Config.typeEvt ∧ code = Config.evtCmdComplete ∧ 4 ≤ len.toNat ∧ vendorOpcode (halfLE lo hi) = true then
      some ⟨halfLE lo hi, status, len - 4, data⟩
    else none
  | _ => none

/-- R131: `is_vendor_cc(t, bytes)`. -/
def isVendorCc (t : Byte) (bytes : List Byte) : Bool := (vendorCc? t bytes).isSome

/-- The events of the Complete resolution, in order (R130, R136): `Inject` for a vendor Command-Complete, then
`Deliver` for every packet. -/
def completionEvents (t : Byte) (bytes : List Byte) : List Event :=
  match vendorCc? t bytes with
  | some v => [.inject v.opcode v.status v.dataLen v.data, .deliver t bytes]
  | none => [.deliver t bytes]

end Sys2Proof.Machine
end

