-- ==== Sys2Proof/Machine/Flags.lean ====
section
/-! DEFINITION. The flag and status computations: the fault set (R200), the counters (R29), the electrical level of the
device-wake pin (R32), and the enabling conditions of THREAD and of the two interrupt sources (R207, R210). -/

namespace Sys2Proof.Machine

/-- Whether a code is in the fault set. -/
def FaultSet.has (f : FaultSet) : FaultCode → Bool
  | .writeBeforeInit => f.writeBeforeInit
  | .initTwice => f.initTwice

/-- The fault set with a code added (R200). No operation removes one (R35). -/
def FaultSet.insert (f : FaultSet) : FaultCode → FaultSet
  | .writeBeforeInit => { f with writeBeforeInit := true }
  | .initTwice => { f with initTwice := true }

/-- R201: whether `faults = ∅`. -/
def FaultSet.isEmpty (f : FaultSet) : Bool := !f.writeBeforeInit && !f.initTwice

/-- R29: the error counters count modulo 2^32. -/
def countUp (c : BitVec 32) : BitVec 32 := c + 1

/-- R32: the electrical level of the device-wake pin. -/
def State.devWakePin (s : State) : Bool := if Config.devWakeActiveLow then !s.devWake else s.devWake

/-- R210: THREAD steps are enabled only while `isr_phase = NONE`. -/
def State.threadMayStep (s : State) : Bool := s.isrPhase == .none

/-- R210: a handler may be entered only while `isr_phase = NONE`. -/
def State.noHandler (s : State) : Bool := s.isrPhase == .none

/-- R207: the host-wake source requests its handler. -/
def State.hostWakeRequest (s : State) : Bool := s.hwPending

/-- R207: the receive source requests its handler: it is armed and a byte is available. -/
def State.rxRequest (s : State) : Bool := s.rxIrqArmed && !s.rxFifo.isEmpty

end Sys2Proof.Machine
end

