-- ==== Sys2Proof/Machine/Ops.lean ====
section
/-! DEFINITION. The operations the meanings share: the primitives of spec/00_scope.md R9 to R12 (events, allocation, Packet
Buffer access), raising a fault (R200), handler entry and return (R210 to R212), the device-wake line (R33), the ENV
draws (R8), and fetching the next operation. -/

namespace Sys2Proof.Machine

/-- `emit E` (00_scope.md section 6). -/
def State.emit (e : Event) (s : State) : State := { s with trace := s.trace ++ [e] }

/-- An operation that is not enabled has no step: nothing changes. DESIGN CHOICE, safe, log 2. -/
def noStep (s : State) : Result := .next s

/-- R33: set or clear the device-wake bit. The event is emitted even when the bit already holds the value. -/
def State.setDevWake (level : Bool) (s : State) : State := State.emit (.devWake level) { s with devWake := level }

/-! ## Faults, handler entry and handler return -/

/-- R200: `raise Fault(code)` adds the code to `faults` and emits the event; nothing else changes
(log 16). -/
def State.raiseFault (code : FaultCode) (s : State) : State :=
  State.emit (.fault code) { s with faults := s.faults.insert code }

/-- R211: handler entry. Nothing is saved: `dev_wake` is asserted and `isr_phase` becomes the handler's. -/
def State.enterHandler (phase : IsrPhase) (s : State) : State :=
  { State.setDevWake true s with isrPhase := phase }

/-- R212: handler return. `dev_wake` is deasserted, whatever it was before the entry, and `isr_phase` is `NONE`. -/
def State.leaveHandler (s : State) : State :=
  { State.setDevWake false s with isrPhase := .none }

/-- R164: take the deep-sleep lock. -/
def State.takeSleepLock (s : State) : State := State.emit .sleepLock { s with sleepLocked := true }

/-- R166: release the deep-sleep lock. -/
def State.dropSleepLock (s : State) : State := State.emit .sleepUnlock { s with sleepLocked := false }

/-! ## Packet Buffers -/

/-- The byte at an offset, if one was written. -/
def readCell : List Host.Cell → Nat → Option Byte
  | [], _ => none
  | (a, v) :: cs, off => if a = off then some v else readCell cs off

/-- Put a byte at an offset, keeping the offsets strictly rising. -/
def writeCell : List Host.Cell → Nat → Byte → List Host.Cell
  | [], off, b => [(off, b)]
  | (a, v) :: cs, off, b =>
    if off < a then (off, b) :: (a, v) :: cs
    else if off = a then (off, b) :: cs
    else (a, v) :: writeCell cs off b

/-- R11: `MemRead(h, off, 1)`. `none` when the block does not own `h` or has not written that offset (log 8). -/
def Memory.read : Memory → Nat → Nat → Option Byte
  | [], _, _ => none
  | p :: ps, h, off => if p.handle = h then readCell p.cells off else Memory.read ps h off

/-- R11: `MemWrite(h, off, 1, b)`. `none` when it is not legal: the block does not own `h`, or `size(h) ≤ off`. -/
def Memory.write : Memory → Nat → Nat → Byte → Option Memory
  | [], _, _, _ => none
  | p :: ps, h, off, b =>
    if p.handle = h then
      if off < p.size.toNat then some ({ p with cells := writeCell p.cells off b } :: ps) else none
    else (Memory.write ps h off b).map (p :: ·)

/-- `MemWrite` of several bytes at rising offsets, first to last. -/
def Memory.writeList : Memory → Nat → Nat → List Byte → Option Memory
  | m, _, _, [] => some m
  | m, h, off, b :: bs =>
    match Memory.write m h off b with
    | some m' => Memory.writeList m' h (off + 1) bs
    | none => none

/-- `MemRead` of `n` bytes at rising offsets, first to last. -/
def Memory.readList (m : Memory) (h : Nat) : Nat → Nat → Option (List Byte)
  | _, 0 => some []
  | off, n + 1 =>
    match Memory.read m h off, Memory.readList m h (off + 1) n with
    | some b, some bs => some (b :: bs)
    | _, _ => none

/-- The size of a buffer the block owns. -/
def Memory.size? : Memory → Nat → Option (BitVec 17)
  | [], _ => none
  | p :: ps, h => if p.handle = h then some p.size else Memory.size? ps h

/-- Take a new buffer of exactly the requested size (log 7), keeping the handles strictly rising. Nothing in it is
written. -/
def Memory.acquire : Memory → Nat → BitVec 17 → Memory
  | [], h, size => [⟨h, size, []⟩]
  | p :: ps, h, size => if h < p.handle then ⟨h, size, []⟩ :: p :: ps else p :: Memory.acquire ps h size

/-- Give a buffer up: R134 (to the callee of `Deliver`) and R231 (by `Free`). E3 holds only the buffers the block owns
(R36). DEDUCED, safe, log 15. -/
def Memory.release (m : Memory) (h : Nat) : Memory := m.filter (fun p => p.handle ≠ h)

/-- Offsets strictly rising, all at least `least` and below `size`. -/
def cellsWf (size : Nat) : Nat → List Host.Cell → Bool
  | _, [] => true
  | least, (a, _) :: cs => decide (least ≤ a) && decide (a < size) && cellsWf size (a + 1) cs

/-- Handles strictly rising, all at least `least`, and every buffer's cells in their canonical form. -/
def memoryWf : Nat → Memory → Bool
  | _, [] => true
  | least, p :: ps => decide (least ≤ p.handle) && cellsWf p.size.toNat 0 p.cells && memoryWf (p.handle + 1) ps

/-- The canonical form of the memory: equal memories are equal data. -/
def Memory.wf (m : Memory) : Bool := memoryWf 0 m

/-! ## ENV draws (R8)

A recorded answer is taken first; with none recorded, the answer is the opaque constant of Config at `drawCount`. -/

/-- One more than every handle the block holds. -/
def Memory.aboveHandles (m : Memory) : Nat := m.foldr (fun p n => max n (p.handle + 1)) 0

/-- R9: a fresh handle, one that names no buffer the block holds: the proposed one when it is fresh. DEDUCED, safe,
log 6. -/
def Memory.freshHandle (m : Memory) (h : Nat) : Nat := if (Memory.size? m h).isSome then Memory.aboveHandles m else h

/-- The answer of `Alloc` (R9, R105). -/
def State.allocAnswer (s : State) : AllocAnswer :=
  match s.allocDraws with
  | .ok h :: _ => .ok (Memory.freshHandle s.mem h)
  | .fail :: _ => .fail
  | [] =>
    if Config.allocGrants s.drawCount then .ok (Memory.freshHandle s.mem (Config.allocHandle s.drawCount)) else .fail

/-- The state after the answer of `Alloc` was drawn. -/
def State.allocDrawn (s : State) : State :=
  match s.allocDraws with
  | _ :: rest => { s with allocDraws := rest }
  | [] => { s with drawCount := s.drawCount + 1 }

/-- Whether the UART reports transmit-ready now (R156). -/
def State.uartReady (s : State) : Bool :=
  match s.readyDraws with
  | r :: _ => r
  | [] => Config.uartReady s.drawCount

/-- The state after transmit-ready was drawn. -/
def State.readyDrawn (s : State) : State :=
  match s.readyDraws with
  | _ :: rest => { s with readyDraws := rest }
  | [] => { s with drawCount := s.drawCount + 1 }

/-- Whether a receive interrupt is entered with `rx_fifo = []` (R160, R163). -/
def State.spurious (s : State) : Bool :=
  match s.spuriousDraws with
  | r :: _ => r
  | [] => Config.spuriousEntry s.drawCount

/-- The state after a spurious entry was drawn. -/
def State.spuriousDrawn (s : State) : State :=
  match s.spuriousDraws with
  | _ :: rest => { s with spuriousDraws := rest }
  | [] => { s with drawCount := s.drawCount + 1 }

/-! ## The received byte -/

/-- R161: the head of `rx_fifo` and the state without it, when `RX_BYTE` is enabled: a handler runs and a byte is
available. -/
def State.takeRxByte (s : State) : Option (Byte × State) :=
  if s.isrPhase = .none then none
  else
    match s.rxFifo with
    | [] => none
    | b :: rest => some (b, { s with rxFifo := rest })

/-! ## Sequencing and fetching -/

/-- Go on with the next state, or stop. -/
def andThen (r : Result) (f : State → Result) : Result :=
  match r with
  | .next s => f s
  | .fault e => .fault e
  | .refused e => .refused e

/-- The next operation of the script, and the state with the script moved past it (R85). -/
def fetch (s : State) : Except DecodeReject (Instr × State) :=
  match decode s.script with
  | .ok (i, rest) => .ok (i, { s with script := rest })
  | .error r => .error r

end Sys2Proof.Machine
end

