-- ==== Sys2Proof/Machine/Environment.lean ====
section
/-! DEFINITION. The meanings of the ENV operations: `RESET` (spec/70_reset_and_hazards.md R230, R231), `ENV_RX_ARRIVE` and
`ENV_HOSTWAKE_EDGE` (spec/42_transport.md R165, R167). -/

namespace Sys2Proof.Machine

/-- R231: `Free(h)` of a held buffer, as the event it emits; the buffer itself leaves with the reset of E3. -/
def State.freeHeld (s : State) : State :=
  match s.pktBuf with
  | some h => State.emit (.free h) s
  | none => s

/-- R230, R231: every element at its reset value, but `faults` and `trace`, which are kept, and the model's own fields,
which no reset of the block reaches (DESIGN CHOICE, safe, log 1 and 5). -/
def State.resetElements (s : State) : State :=
  { State.reset with
    faults := s.faults, trace := s.trace, script := s.script, allocDraws := s.allocDraws,
    readyDraws := s.readyDraws, spuriousDraws := s.spuriousDraws, drawCount := s.drawCount }

/-- `RESET` (R231), enabled at any step. -/
def execReset (s : State) : Result := .next (State.resetElements (State.freeHeld s))

/-- `ENV_RX_ARRIVE(b)` (R167): enabled while the receive handler is armed (R38). -/
def execEnvRxArrive (b : Byte) (s : State) : Result :=
  if s.rxIrqArmed then .next { s with rxFifo := s.rxFifo ++ [b] } else noStep s

/-- `ENV_HOSTWAKE_EDGE` (R165), always enabled: the edge is lost while the handler is not armed. -/
def execEnvHostwakeEdge (s : State) : Result :=
  .next (if s.hwIrqArmed then { s with hwPending := true } else s)

end Sys2Proof.Machine
end

