-- ==== Sys2Proof/Machine/Completion.lean ====
section
/-! DEFINITION. The Complete resolution of spec/41_rx_completion.md (R130 to R139), and the meanings of the two rows of format
evt_pattern. A row is the resolution of a packet that matches it, so it acts on a state in the middle of an `RX_BYTE`
step, with `rx_state = COMPLETE` (DESIGN CHOICE, safe, log 14). -/

namespace Sys2Proof.Machine

/-- R134, R135: the events of the resolution, the buffer handed over, and the return to `IDLE`. -/
def State.finishPacket (h : Nat) (events : List Event) (s : State) : State :=
  { s with trace := s.trace ++ events, mem := Memory.release s.mem h, pktBuf := none, rxState := .idle }

/-- The bytes of the held packet (R130): `MemRead` of the offsets 0 to `pkt_size − 1`. -/
def State.packetBytes (s : State) (h : Nat) : Option (List Byte) := Memory.readList s.mem h 0 s.pktSize.toNat

/-- R130: `complete()`. Without a buffer it emits nothing and returns to `IDLE` (R137). -/
def complete (s : State) : Result :=
  match s.pktBuf with
  | none => .next { s with pktBuf := none, rxState := .idle }
  | some h =>
    match s.packetBytes h with
    | some bytes => .next (State.finishPacket h (completionEvents s.pktType bytes) s)
    | none => .fault (.bufferAccess h)

/-- R112: the test after every case, "not an exclusive else branch". -/
def resolveComplete (s : State) : Result := if s.rxState = .complete then complete s else .next s

/-- `COMPLETE.vendor_cc` (R131, R133, R134, R136): `Inject`, then `Deliver`. -/
def execCompleteVendorCc (s : State) : Result :=
  if s.rxState = .complete then
    match s.pktBuf with
    | none => noStep s
    | some h =>
      match s.packetBytes h with
      | none => .fault (.bufferAccess h)
      | some bytes =>
        match vendorCc? s.pktType bytes with
        | some v =>
          .next (State.finishPacket h
            [.inject v.opcode v.status v.dataLen v.data, .deliver s.pktType bytes] s)
        | none => noStep s
  else noStep s

/-- `COMPLETE.plain` (R134, R139): `Deliver` alone; with no buffer, nothing (R137). -/
def execCompletePlain (s : State) : Result :=
  if s.rxState = .complete then
    match s.pktBuf with
    | none => .next { s with pktBuf := none, rxState := .idle }
    | some h =>
      match s.packetBytes h with
      | none => .fault (.bufferAccess h)
      | some bytes =>
        if isVendorCc s.pktType bytes then noStep s
        else .next (State.finishPacket h [.deliver s.pktType bytes] s)
  else noStep s

end Sys2Proof.Machine
end

