-- ==== Sys2Proof/Machine/Reassembler.lean ====
section
/-! DEFINITION. The reassembler's byte step (spec/40_rx_reassembly.md), the meaning of `RX_BYTE` (spec/42_transport.md R161)
and of the seven rows of format rx_sel, which are its cases (log 13). -/

namespace Sys2Proof.Machine

/-- R100: `idle_byte`. The type is not checked here. -/
def idleByte (b : Byte) (s : State) : State := { s with pktType := b, hdrCursor := 0, rxState := .header }

/-- R101: the two writes of `header_byte`. The sums here and in `dataByte` wrap only in states no run reaches (log 19). -/
def storeHeaderByte (b : Byte) (s : State) : Result :=
  match s.hdrBuf.write s.hdrCursor.toNat b with
  | some hdr => .next { s with hdrBuf := hdr, hdrCursor := s.hdrCursor + 1 }
  | none => .fault .headerIndex

/-- R105, R106, `ans = Ok(h)`: the buffer is taken and the header copied into it. -/
def headerGranted (t : PacketType) (h : Nat) (s : State) : Result :=
  match Memory.writeList (Memory.acquire s.mem h (t.bufferSize (t.lenField s.hdrBuf))) h 0
      (s.hdrBuf.bytes.take t.hdrLen) with
  | some m =>
    .next { State.emit (.alloc t.pool (t.bufferSize (t.lenField s.hdrBuf)) (.ok h)) (State.allocDrawn s) with
      mem := m
      pktBuf := some h
      pktSize := t.bufferSize (t.lenField s.hdrBuf)
      wrCursor := BitVec.ofNat 17 t.hdrLen
      countdown := t.lenField s.hdrBuf
      rxState := if t.lenField s.hdrBuf = 0 then .complete else .data }
  | none => .fault (.bufferAccess h)

/-- R105, R106, `ans = Fail`: the error condition `ALLOC_FAIL` (R202). -/
def headerDenied (t : PacketType) (s : State) : State :=
  { State.emit (.alloc t.pool (t.bufferSize (t.lenField s.hdrBuf)) .fail) (State.allocDrawn s) with
    allocFailCount := countUp s.allocFailCount
    rxState := .error }

/-- R104 to R106: `header_complete()`. -/
def headerComplete (t : PacketType) (s : State) : Result :=
  match s.allocAnswer with
  | .ok h => headerGranted t h s
  | .fail => .next (headerDenied t s)

/-- R101, R103: `header_byte` of a valid type. -/
def headerByte (t : PacketType) (b : Byte) (s : State) : Result :=
  andThen (storeHeaderByte b s) fun s1 =>
    if s1.hdrCursor.toNat = t.hdrLen then headerComplete t s1 else .next s1

/-- R102: `bad_type`, the error condition `BAD_TYPE` (R202). The byte is discarded. -/
def badType (s : State) : State := { s with badTypeCount := countUp s.badTypeCount, rxState := .idle }

/-- R110: `data_byte`. -/
def dataByte (b : Byte) (s : State) : Result :=
  match s.pktBuf with
  | none => .fault .noPacketBuffer
  | some h =>
    if s.countdown = 0 then .fault .countdownZero
    else
      match Memory.write s.mem h s.wrCursor.toNat b with
      | some m =>
        .next { s with
          mem := m
          wrCursor := s.wrCursor + 1
          countdown := s.countdown - 1
          rxState := if s.countdown - 1 = 0 then .complete else .data }
      | none => .fault (.bufferAccess h)

/-- R111: `error_byte`. The byte is dropped. -/
def errorByte (s : State) : State := { s with rxState := .error }

/-- R112: the case selection of `rx_step`. It has no arm for `COMPLETE`. -/
def rxCase (b : Byte) (s : State) : Result :=
  match s.rxState with
  | .idle => .next (idleByte b s)
  | .header =>
    match packetType? s.pktType with
    | some t => headerByte t b s
    | none => .next (badType s)
  | .data => dataByte b s
  | .error => .next (errorByte s)
  | .complete => .fault .completeAtStart

/-- R112: `rx_step(b)`. -/
def rxStep (b : Byte) (s : State) : Result := andThen (rxCase b s) resolveComplete

/-- `RX_BYTE` (R161). -/
def execRxByte (s : State) : Result :=
  match s.takeRxByte with
  | some (b, s1) => rxStep b s1
  | none => noStep s

/-! ## The rows of format rx_sel

A row is `RX_BYTE` in the states its condition selects; in every other state it has no step (log 13). -/

/-- `RX_BYTE` under the condition of a row: `case` answers `none` where the condition fails. -/
def rxSelected (case : Byte → State → Option Result) (s : State) : Result :=
  match s.takeRxByte with
  | some (b, s1) => (case b s1).getD (noStep s)
  | none => noStep s

/-- The packet type of a header being received, when it is valid (R112). -/
def State.headerType? (s : State) : Option PacketType :=
  if s.rxState = .header then packetType? s.pktType else none

/-- `RX_BYTE.IDLE` (R100): `rx_state = IDLE`. -/
def execRxByteIdle (s : State) : Result :=
  rxSelected (fun b s1 => if s1.rxState = .idle then some (.next (idleByte b s1)) else none) s

/-- `RX_BYTE.HEADER.partial` (R101, R103): `hdr_cursor + 1 < hdr_len`. -/
def execRxByteHeaderPartial (s : State) : Result :=
  rxSelected (fun b s1 =>
    match s1.headerType? with
    | some t => if s1.hdrCursor.toNat + 1 < t.hdrLen then some (storeHeaderByte b s1) else none
    | none => none) s

/-- `RX_BYTE.HEADER.complete` (R101, R104 to R106): `hdr_cursor + 1 = hdr_len`. -/
def execRxByteHeaderComplete (s : State) : Result :=
  rxSelected (fun b s1 =>
    match s1.headerType? with
    | some t =>
      if s1.hdrCursor.toNat + 1 = t.hdrLen then
        some (andThen (andThen (storeHeaderByte b s1) (headerComplete t)) resolveComplete)
      else none
    | none => none) s

/-- `RX_BYTE.HEADER.badtype` (R102): `rx_state = HEADER` and not `valid(pkt_type)`. -/
def execRxByteHeaderBadtype (s : State) : Result :=
  rxSelected (fun _ s1 =>
    if s1.rxState = .header ∧ validType s1.pktType = false then some (.next (badType s1)) else none) s

/-- `RX_BYTE.DATA.more` (R110): `countdown > 1`. -/
def execRxByteDataMore (s : State) : Result :=
  rxSelected (fun b s1 =>
    if s1.rxState = .data ∧ 1 < s1.countdown.toNat then some (dataByte b s1) else none) s

/-- `RX_BYTE.DATA.last` (R110, then R130): `countdown = 1`. -/
def execRxByteDataLast (s : State) : Result :=
  rxSelected (fun b s1 =>
    if s1.rxState = .data ∧ s1.countdown = 1 then some (andThen (dataByte b s1) complete) else none) s

/-- `RX_BYTE.ERROR` (R111): `rx_state = ERROR`. -/
def execRxByteError (s : State) : Result :=
  rxSelected (fun _ s1 => if s1.rxState = .error then some (.next (errorByte s1)) else none) s

/-- The row of format rx_sel that the table's conditions select for the byte to be received (R84): for every enabled
`RX_BYTE` in a state that meets R27 and R28 there is one. -/
def State.rxRow? (s : State) : Option Instr :=
  match s.rxState with
  | .idle => some .rxByteIdle
  | .header =>
    match packetType? s.pktType with
    | some t =>
      if s.hdrCursor.toNat + 1 < t.hdrLen then some .rxByteHeaderPartial
      else if s.hdrCursor.toNat + 1 = t.hdrLen then some .rxByteHeaderComplete
      else none
    | none => some .rxByteHeaderBadtype
  | .data =>
    if 1 < s.countdown.toNat then some .rxByteDataMore
    else if s.countdown = 1 then some .rxByteDataLast
    else none
  | .error => some .rxByteError
  | .complete => none

end Sys2Proof.Machine
end

