-- ==== Sys2Proof/Machine/FrameTypes.lean ====
section
/-! DEFINITION. The meanings of the rows of format h4_type (spec/30_encoding.md R72 to R77): the `RX_BYTE` step of a frame
whose type byte is the row's. In `IDLE` the type byte is the received byte (R100); in `HEADER` and `DATA` it is the one
`pkt_type` holds, and selects the header length, the length field, the pool or `BAD_TYPE` (R101 to R110). DESIGN CHOICE,
safe, log 12. -/

namespace Sys2Proof.Machine

/-- The type byte of the frame that the byte `b` belongs to. In `ERROR` no frame is received. -/
def State.frameType? (b : Byte) (s : State) : Option Byte :=
  match s.rxState with
  | .idle => some b
  | .header | .data => some s.pktType
  | .complete | .error => none

/-- `RX_BYTE` when the received byte belongs to a frame of type byte `t`; in every other state there is no step. -/
def rxOfFrame (t : Byte) (s : State) : Result :=
  rxSelected (fun b s1 => if s1.frameType? b = some t then some (rxStep b s1) else none) s

/-- `H4_CMD` (R75). -/
def execH4Cmd (s : State) : Result := rxOfFrame Config.typeCmd s
/-- `H4_ACL` (R76). -/
def execH4Acl (s : State) : Result := rxOfFrame Config.typeAcl s
/-- `H4_EVT` (R77). -/
def execH4Evt (s : State) : Result := rxOfFrame Config.typeEvt s
/-- `H4_SYNC_INVALID` (R72, R102). -/
def execH4SyncInvalid (s : State) : Result := rxOfFrame 0x03 s
/-- `H4_INVALID_0x00` (R102). -/
def execH4Invalid00 (s : State) : Result := rxOfFrame 0x00 s
/-- `H4_INVALID_0x05` (R102). -/
def execH4Invalid05 (s : State) : Result := rxOfFrame 0x05 s
/-- `H4_INVALID_0x06-0x07` (R102). -/
def execH4Invalid06 (low : BitVec 1) (s : State) : Result := rxOfFrame (0x03#7 ++ low) s
/-- `H4_INVALID_0x08-0x0F` (R102). -/
def execH4Invalid08 (low : BitVec 3) (s : State) : Result := rxOfFrame (0x01#5 ++ low) s
/-- `H4_INVALID_0x10-0x1F` (R102). -/
def execH4Invalid10 (low : BitVec 4) (s : State) : Result := rxOfFrame (0x1#4 ++ low) s
/-- `H4_INVALID_0x20-0x3F` (R102). -/
def execH4Invalid20 (low : BitVec 5) (s : State) : Result := rxOfFrame (0x1#3 ++ low) s
/-- `H4_INVALID_0x40-0x7F` (R102). -/
def execH4Invalid40 (low : BitVec 6) (s : State) : Result := rxOfFrame (0x1#2 ++ low) s
/-- `H4_INVALID_0x80-0xFF` (R102). -/
def execH4Invalid80 (low : BitVec 7) (s : State) : Result := rxOfFrame (0x1#1 ++ low) s

end Sys2Proof.Machine
end

