-- ==== Sys2Proof/Machine/Interrupt.lean ====
section
/-! DEFINITION. The meanings of the handlers' entry and exit steps (spec/42_transport.md R160 to R166, spec/60_exceptions.md
R207 to R212), over the shared entry and return of Ops.lean. -/

namespace Sys2Proof.Machine

/-- `RXIRQ_ENTER` (R160). With an empty `rx_fifo` the entry is spurious, and ENV draws whether it happens (R163). -/
def execRxirqEnter (s : State) : Result :=
  if s.noHandler ∧ s.rxIrqArmed then
    if s.rxRequest then .next (State.enterHandler .rx s)
    else if s.spurious then .next (State.enterHandler .rx s.spuriousDrawn)
    else .next s.spuriousDrawn
  else noStep s

/-- `RXIRQ_EXIT` (R162): only when no byte is available. -/
def execRxirqExit (s : State) : Result :=
  if s.isrPhase = .rx ∧ s.rxFifo.isEmpty then .next (State.leaveHandler s) else noStep s

/-- `HOSTWAKE_FALL` (R164). -/
def execHostwakeFall (s : State) : Result :=
  if s.noHandler ∧ s.hostWakeRequest then
    .next (State.enterHandler .hostWake (State.takeSleepLock { s with hwPending := false }))
  else noStep s

/-- `HOSTWAKE_EXIT` (R166): the lock is released after the inner drain has returned. -/
def execHostwakeExit (s : State) : Result :=
  if s.isrPhase = .hostWake ∧ s.rxFifo.isEmpty then .next (State.dropSleepLock (State.leaveHandler s)) else noStep s

end Sys2Proof.Machine
end

