-- ==== Sys2Proof/Machine/Transport.lean ====
section
/-! DEFINITION. The meanings of the THREAD operations of spec/42_transport.md: `INIT`, `INIT_SETTLE`, `TERMINATE` (R150 to
R153) and the three steps of a write (R154 to R159). Each is enabled only while no handler runs (R210). -/

namespace Sys2Proof.Machine

/-- The UART configuration `INIT` writes (R150). -/
def initUartCfg : UartCfg :=
  ⟨Config.baud, Config.uartDataBits, .none, Config.uartStopBits, Config.hwFlow⟩

/-- `init()` (R150). -/
def State.initialised (s : State) : State :=
  { State.emit (.uartConfig initUartCfg) s with
    uartCfg := some initUartCfg
    rxIrqArmed := true
    hwIrqArmed := if Config.deepSleep then true else s.hwIrqArmed
    initState := .settling }

/-- `INIT` (R150); a second one raises `INIT_TWICE` (R152), also while a write is in progress or hangs on a UART that is
never ready, where R158 has THREAD take no step: DESIGN CHOICE, safe, log 21. -/
def execInit (s : State) : Result :=
  if s.threadMayStep then
    if s.initState = .uninit then .next (State.initialised s) else .next (State.raiseFault .initTwice s)
  else noStep s

/-- `INIT_SETTLE` (R151). -/
def execInitSettle (s : State) : Result :=
  if s.threadMayStep ∧ s.initState = .settling then
    .next { State.setDevWake false s with initState := .ready }
  else noStep s

/-- `TERMINATE` (R153): no state is written and no event is emitted, whether or not it is enabled. -/
def execTerminate (s : State) : Result := .next s

/-- `write_begin(type, length, data)` (R155). -/
def State.writeBegun (type : Byte) (length : Half) (data : List Byte) (s : State) : State :=
  State.setDevWake true
    { s with txType := type, txLen := length, txData := data, txIdx := 0, txPhase := .type }

/-- `WRITE_BEGIN` (R155); before `READY` it raises `WRITE_BEFORE_INIT` (R154). -/
def execWriteBegin (type : Byte) (length : Half) (data : List Byte) (s : State) : Result :=
  if s.threadMayStep then
    if s.initState = .ready then
      if s.txPhase = .idle then .next (State.writeBegun type length data s) else noStep s
    else .next (State.raiseFault .writeBeforeInit s)
  else noStep s

/-- `write_byte()` (R156) once the UART is transmit-ready. -/
def transmitByte (s : State) : Result :=
  match s.txPhase with
  | .type =>
    .next { State.emit (.txByte s.txType) s with txPhase := if s.txLen = 0 then .done else .data }
  | .data =>
    match s.txData[s.txIdx.toNat]? with
    | some b =>
      .next { State.emit (.txByte b) s with
        txIdx := s.txIdx + 1
        txPhase := if s.txIdx + 1 = s.txLen then .done else .data }
    | none => .fault .txIndex
  | .idle | .done => noStep s

/-- Whether a write has a byte to send: `tx_phase ∈ {TX_TYPE, TX_DATA}` (R156). -/
def State.sending (s : State) : Bool := s.txPhase == .type || s.txPhase == .data

/-- `WRITE_BYTE` (R156). While the UART is not transmit-ready it has no step (R158); the answer was drawn. -/
def execWriteByte (s : State) : Result :=
  if s.threadMayStep ∧ s.sending then
    if s.uartReady then transmitByte s.readyDrawn else .next s.readyDrawn
  else noStep s

/-- `WRITE_END` (R157): the value returned is `length` (R159). -/
def execWriteEnd (s : State) : Result :=
  if s.threadMayStep ∧ s.txPhase = .done then
    .next { State.emit (.writeReturn s.txLen) (State.setDevWake false s) with txPhase := .idle }
  else noStep s

end Sys2Proof.Machine
end

