-- ==== Sys2Proof/Machine/UnusedTags.lean ====
section
/-! DEFINITION. The tags that name no operation (spec/30_encoding.md R83): "A model that receives one refuses it (a decoder
verdict, not a step)." The decoder reads such a tag as its table row, and the row's meaning is that refusal, with the tag
(log 11). -/

namespace Sys2Proof.Machine

/-- R83: no step is taken. -/
def refuseTag (tag : Byte) (_ : State) : Result := .refused (.unusedTag tag)

/-- `UNUSED_TAG_0x04-0x07` (R83). -/
def execUnusedTag04 (low : BitVec 2) (s : State) : Result := refuseTag (0x01#6 ++ low) s
/-- `UNUSED_TAG_0x08-0x0F` (R83). -/
def execUnusedTag08 (low : BitVec 3) (s : State) : Result := refuseTag (0x01#5 ++ low) s
/-- `UNUSED_TAG_0x13` (R83). -/
def execUnusedTag13 (s : State) : Result := refuseTag 0x13 s
/-- `UNUSED_TAG_0x14-0x17` (R83). -/
def execUnusedTag14 (low : BitVec 2) (s : State) : Result := refuseTag (0x05#6 ++ low) s
/-- `UNUSED_TAG_0x18-0x1F` (R83). -/
def execUnusedTag18 (low : BitVec 3) (s : State) : Result := refuseTag (0x03#5 ++ low) s
/-- `UNUSED_TAG_0x23` (R83). -/
def execUnusedTag23 (s : State) : Result := refuseTag 0x23 s
/-- `UNUSED_TAG_0x24-0x27` (R83). -/
def execUnusedTag24 (low : BitVec 2) (s : State) : Result := refuseTag (0x09#6 ++ low) s
/-- `UNUSED_TAG_0x28-0x2F` (R83). -/
def execUnusedTag28 (low : BitVec 3) (s : State) : Result := refuseTag (0x05#5 ++ low) s
/-- `UNUSED_TAG_0x32-0x33` (R83). -/
def execUnusedTag32 (low : BitVec 1) (s : State) : Result := refuseTag (0x19#7 ++ low) s
/-- `UNUSED_TAG_0x34-0x37` (R83). -/
def execUnusedTag34 (low : BitVec 2) (s : State) : Result := refuseTag (0x0D#6 ++ low) s
/-- `UNUSED_TAG_0x38-0x3F` (R83). -/
def execUnusedTag38 (low : BitVec 3) (s : State) : Result := refuseTag (0x07#5 ++ low) s
/-- `UNUSED_TAG_0x42-0x43` (R83). -/
def execUnusedTag42 (low : BitVec 1) (s : State) : Result := refuseTag (0x21#7 ++ low) s
/-- `UNUSED_TAG_0x44-0x47` (R83). -/
def execUnusedTag44 (low : BitVec 2) (s : State) : Result := refuseTag (0x11#6 ++ low) s
/-- `UNUSED_TAG_0x48-0x4F` (R83). -/
def execUnusedTag48 (low : BitVec 3) (s : State) : Result := refuseTag (0x09#5 ++ low) s
/-- `UNUSED_TAG_0x50-0x5F` (R83). -/
def execUnusedTag50 (low : BitVec 4) (s : State) : Result := refuseTag (0x5#4 ++ low) s
/-- `UNUSED_TAG_0x60-0x7F` (R83). -/
def execUnusedTag60 (low : BitVec 5) (s : State) : Result := refuseTag (0x3#3 ++ low) s
/-- `UNUSED_TAG_0x80-0xFF` (R83). -/
def execUnusedTag80 (low : BitVec 7) (s : State) : Result := refuseTag (0x1#1 ++ low) s

end Sys2Proof.Machine
end

