-- ==== Sys2Proof/Machine/Dispatch.lean ====
section
/-! DEFINITION. The dispatch: one arm for each row of spec/opcode_table.json, in the table's order. -/

namespace Sys2Proof.Machine

def exec (i : Instr) (s : State) : Host.Outcome State Fault Refusal :=
  match i with
  | .reset => Sys2Proof.Machine.execReset s
  | .init => Sys2Proof.Machine.execInit s
  | .initSettle => Sys2Proof.Machine.execInitSettle s
  | .terminate => Sys2Proof.Machine.execTerminate s
  | .writeBegin type length data => Sys2Proof.Machine.execWriteBegin type length data s
  | .writeByte => Sys2Proof.Machine.execWriteByte s
  | .writeEnd => Sys2Proof.Machine.execWriteEnd s
  | .rxirqEnter => Sys2Proof.Machine.execRxirqEnter s
  | .rxByte => Sys2Proof.Machine.execRxByte s
  | .rxirqExit => Sys2Proof.Machine.execRxirqExit s
  | .hostwakeFall => Sys2Proof.Machine.execHostwakeFall s
  | .hostwakeExit => Sys2Proof.Machine.execHostwakeExit s
  | .envRxArrive b => Sys2Proof.Machine.execEnvRxArrive b s
  | .envHostwakeEdge => Sys2Proof.Machine.execEnvHostwakeEdge s
  | .unusedTag04 low => Sys2Proof.Machine.execUnusedTag04 low s
  | .unusedTag08 low => Sys2Proof.Machine.execUnusedTag08 low s
  | .unusedTag13 => Sys2Proof.Machine.execUnusedTag13 s
  | .unusedTag14 low => Sys2Proof.Machine.execUnusedTag14 low s
  | .unusedTag18 low => Sys2Proof.Machine.execUnusedTag18 low s
  | .unusedTag23 => Sys2Proof.Machine.execUnusedTag23 s
  | .unusedTag24 low => Sys2Proof.Machine.execUnusedTag24 low s
  | .unusedTag28 low => Sys2Proof.Machine.execUnusedTag28 low s
  | .unusedTag32 low => Sys2Proof.Machine.execUnusedTag32 low s
  | .unusedTag34 low => Sys2Proof.Machine.execUnusedTag34 low s
  | .unusedTag38 low => Sys2Proof.Machine.execUnusedTag38 low s
  | .unusedTag42 low => Sys2Proof.Machine.execUnusedTag42 low s
  | .unusedTag44 low => Sys2Proof.Machine.execUnusedTag44 low s
  | .unusedTag48 low => Sys2Proof.Machine.execUnusedTag48 low s
  | .unusedTag50 low => Sys2Proof.Machine.execUnusedTag50 low s
  | .unusedTag60 low => Sys2Proof.Machine.execUnusedTag60 low s
  | .unusedTag80 low => Sys2Proof.Machine.execUnusedTag80 low s
  | .h4Cmd => Sys2Proof.Machine.execH4Cmd s
  | .h4Acl => Sys2Proof.Machine.execH4Acl s
  | .h4Evt => Sys2Proof.Machine.execH4Evt s
  | .h4SyncInvalid => Sys2Proof.Machine.execH4SyncInvalid s
  | .h4Invalid00 => Sys2Proof.Machine.execH4Invalid00 s
  | .h4Invalid05 => Sys2Proof.Machine.execH4Invalid05 s
  | .h4Invalid06 low => Sys2Proof.Machine.execH4Invalid06 low s
  | .h4Invalid08 low => Sys2Proof.Machine.execH4Invalid08 low s
  | .h4Invalid10 low => Sys2Proof.Machine.execH4Invalid10 low s
  | .h4Invalid20 low => Sys2Proof.Machine.execH4Invalid20 low s
  | .h4Invalid40 low => Sys2Proof.Machine.execH4Invalid40 low s
  | .h4Invalid80 low => Sys2Proof.Machine.execH4Invalid80 low s
  | .rxByteIdle => Sys2Proof.Machine.execRxByteIdle s
  | .rxByteHeaderPartial => Sys2Proof.Machine.execRxByteHeaderPartial s
  | .rxByteHeaderComplete => Sys2Proof.Machine.execRxByteHeaderComplete s
  | .rxByteHeaderBadtype => Sys2Proof.Machine.execRxByteHeaderBadtype s
  | .rxByteDataMore => Sys2Proof.Machine.execRxByteDataMore s
  | .rxByteDataLast => Sys2Proof.Machine.execRxByteDataLast s
  | .rxByteError => Sys2Proof.Machine.execRxByteError s
  | .completeVendorCc => Sys2Proof.Machine.execCompleteVendorCc s
  | .completePlain => Sys2Proof.Machine.execCompletePlain s

end Sys2Proof.Machine
end

