-- ==== Sys2Proof/Machine/Step.lean ====
section
/-! DEFINITION. One step of the machine: the next operation of the script is read and performed. With no operation
scheduled nothing happens (DESIGN CHOICE, safe, log 3). -/

namespace Sys2Proof.Machine

/-- One step (R5, R83, R85): the script moves past the operation, then the operation runs. -/
def step (s : State) : Host.Outcome State Fault Refusal :=
  match fetch s with
  | .ok (i, s1) => exec i s1
  | .error .empty => .next s
  | .error r => .refused (.undecodable r)

/-- The instruction with the bits `w` put at the head of the script, so that the next step runs it. -/
def State.withFetchWord (s : State) (nbits w : Nat) : State :=
  { s with script := wordBytes nbits w ++ s.script }

end Sys2Proof.Machine
end

