-- ==== Sys2Proof/Safety.lean ====
section
/-! DEFINITION. What counts as a good run: the premises the spec gives its claims (spec/60_exceptions.md R201, R203), the
invariants of spec/10_state.md R27, R28, R34 and of the transport wrapper, and the parts of the state that claims compare. -/

namespace Sys2Proof.Machine

/-- R201: a good state has no fault recorded. -/
def State.faultFree (s : State) : Bool := s.faults.isEmpty

/-- R203: reception has not stopped for good. -/
def State.receiving (s : State) : Bool := !(s.rxState == .error)

/-- R27 for `HEADER`: `hdr_cursor < hdr_len(pkt_type)` for a valid type, `hdr_cursor = 0` otherwise. -/
def State.headerCursorOk (s : State) : Prop :=
  match packetType? s.pktType with
  | some t => s.hdrCursor.toNat < t.hdrLen
  | none => s.hdrCursor = 0

/-- R27 for `DATA`, with what R55, R105 and R106 leave: a buffer of the size the header announces is held, the header
stands in it, and `wr_cursor + countdown = pkt_size` with `countdown ≥ 1`. -/
structure DataInv (s : State) (h : Nat) (t : PacketType) : Prop where
  held : s.pktBuf = some h
  typed : packetType? s.pktType = some t
  size : s.pktSize = t.bufferSize (t.lenField s.hdrBuf)
  headerIn : t.hdrLen ≤ s.wrCursor.toNat
  headerCopied : Memory.readList s.mem h 0 t.hdrLen = some (s.hdrBuf.bytes.take t.hdrLen)
  remaining : 1 ≤ s.countdown.toNat
  balance : s.wrCursor.toNat + s.countdown.toNat = s.pktSize.toNat

/-- E3 and S6 agree: with no buffer held E3 is empty; a held buffer is the only one, has the size `pkt_size`, and every
offset below `wr_cursor` has been written (R27, R36, R54, R63). -/
structure BufferInv (s : State) : Prop where
  noneOwned : s.pktBuf = none → s.mem = []
  oneOwned : ∀ h, s.pktBuf = some h →
    ∃ cells, s.mem = [⟨h, s.pktSize, cells⟩] ∧ ∀ off, off < s.wrCursor.toNat → (readCell cells off).isSome = true

/-- The invariant of the reassembler between two steps (R27, R28). -/
structure ReassemblerInv (s : State) : Prop where
  idle : s.rxState = .idle → s.pktBuf = none
  header : s.rxState = .header → s.pktBuf = none ∧ s.headerCursorOk
  data : s.rxState = .data → ∃ h t, DataInv s h t
  error : s.rxState = .error → s.pktBuf = none
  notComplete : s.rxState ≠ .complete
  buffers : BufferInv s
  memory : Memory.wf s.mem = true

/-- The invariant of the transport wrapper (R31, R34, R38, R150 to R169). Right after a reset `dataLength` holds only because
the model resets `tx_len` to 0 (log 4, unsafe). -/
structure TransportInv (s : State) : Prop where
  sleepLock : s.sleepLocked = true ↔ s.isrPhase = .hostWake
  unconfigured : s.initState = .uninit → s.uartCfg = none ∧ s.rxIrqArmed = false ∧ s.hwIrqArmed = false
  configured : s.initState ≠ .uninit →
    s.uartCfg = some initUartCfg ∧ s.rxIrqArmed = true ∧ s.hwIrqArmed = Config.deepSleep
  handlerArmed : s.isrPhase ≠ .none → s.rxIrqArmed = true
  hostWakeArmed : s.isrPhase = .hostWake → s.hwIrqArmed = true
  edgeArmed : s.hwPending = true → s.hwIrqArmed = true
  fifoArmed : s.rxFifo ≠ [] → s.rxIrqArmed = true
  writeReady : s.txPhase ≠ .idle → s.initState = .ready
  dataLength : s.txData.length = s.txLen.toNat
  typeIndex : s.txPhase = .type → s.txIdx = 0
  dataIndex : s.txPhase = .data → s.txIdx.toNat < s.txLen.toNat
  doneIndex : s.txPhase = .done → s.txIdx = s.txLen
  indexBound : s.txIdx.toNat ≤ s.txLen.toNat

/-- What the reassembler holds: S1 to S10 and E3. -/
structure Reassembly where
  rxState : RxState
  pktType : Byte
  hdrBuf : HeaderBuffer
  hdrCursor : BitVec 3
  countdown : BitVec 16
  pktBuf : Option Nat
  pktSize : BitVec 17
  wrCursor : BitVec 17
  badTypeCount : BitVec 32
  allocFailCount : BitVec 32
  mem : Memory
deriving DecidableEq, Repr

/-- The reassembler's part of the state. -/
def State.reassembly (s : State) : Reassembly :=
  ⟨s.rxState, s.pktType, s.hdrBuf, s.hdrCursor, s.countdown, s.pktBuf, s.pktSize, s.wrCursor, s.badTypeCount,
    s.allocFailCount, s.mem⟩

/-- THREAD's part of the state: what a write and `initialize()` have left (R211). -/
structure ThreadPart where
  initState : InitState
  uartCfg : Option UartCfg
  rxIrqArmed : Bool
  hwIrqArmed : Bool
  txPhase : TxPhase
  txType : Byte
  txLen : Half
  txIdx : Half
  txData : List Byte
deriving DecidableEq, Repr

/-- THREAD's part of the state. -/
def State.threadPart (s : State) : ThreadPart :=
  ⟨s.initState, s.uartCfg, s.rxIrqArmed, s.hwIrqArmed, s.txPhase, s.txType, s.txLen, s.txIdx, s.txData⟩

/-- The events a step from `s` to `t` has added to the trace. -/
def newEvents (s t : State) : List Event := t.trace.drop s.trace.length

/-- Whether an event is one of the reassembler's or of `RESET`: `Alloc`, `Free`, `Inject`, `Deliver` (R6, R9 to R12). -/
def Event.ofReassembler : Event → Bool
  | .alloc _ _ _ | .free _ | .inject _ _ _ _ | .deliver _ _ => true
  | .uartConfig _ | .txByte _ | .devWake _ | .sleepLock | .sleepUnlock | .writeReturn _ | .fault _ => false

/-- R83, R85: the operation is its tag byte alone, whatever follows. -/
def HasTag (tag : Byte) (i : Instr) : Prop := ∀ rest : List Byte, decode (tag :: rest) = .ok (i, rest)

/-- The level of a device-wake event (R6). -/
def Event.wakeLevel? : Event → Option Bool
  | .devWake level => some level
  | .uartConfig _ | .txByte _ | .sleepLock | .sleepUnlock | .alloc _ _ _ | .free _ => none
  | .inject _ _ _ _ | .deliver _ _ | .writeReturn _ | .fault _ => none

/-- Several operations one after the other, stopping at the first fault or refusal. -/
def runOps : List Instr → State → Result
  | [], s => .next s
  | i :: is, s => andThen (exec i s) (runOps is)

/-- The state with other values in the elements the spec gives no reset value (R26). -/
def State.withUnwritten (type : Byte) (hdr : HeaderBuffer) (txType : Byte) (txLen : Half) (s : State) : State :=
  { s with pktType := type, hdrBuf := hdr, txType := txType, txLen := txLen }

end Sys2Proof.Machine
end

