-- ==== Sys2Proof/Certificates/Slice0/Obligations.lean ====
section
/-! DEFINITION. The statements for the provers, from the numbered rules of spec/. -/

open Sys2Proof Sys2Proof.Machine

/-! ## Encoding -/

/-- R83, R85: every operation, with every operand, is read back from its bytes, whatever follows it. The 14 operations and
the 17 rows of unused tags. -/
def Obligations.DecodeReadsBackEveryOperation : Prop :=
  ∀ (i : Instr) (rest : List Byte), i.format = .opTag → i.wf = true → decode (encode i ++ rest) = .ok (i, rest)

/-- R83, R85: the other direction: what the decoder reads is well formed, and its encoding is what was read. -/
def Obligations.EncodeWritesBackWhatWasRead : Prop :=
  ∀ (bytes rest : List Byte) (i : Instr), decode bytes = .ok (i, rest) →
    bytes = encode i ++ rest ∧ i.format = .opTag ∧ i.wf = true

/-- R72, R84: the rows of the type byte and their bytes agree in both directions, and each of the 256 values of a tag byte
and of a type byte matches exactly one row. -/
def Obligations.TypeRowsAndTagRowsCoverEveryByteOnce : Prop :=
  (∀ (i : Instr) (t : Byte), encodeType i = some t ↔ decodeType t = some i) ∧
  (∀ t : Byte, (opTagRows.filter (tagMatches t)).length = 1 ∧ (h4TypeRows.filter (typeMatches t)).length = 1)

/-- Words written out from R83 and R85. -/
def Obligations.SampleWordsDecodeAsWritten : Prop :=
  decode [0x00] = .ok (.reset, []) ∧
  decode [0x10, 0x01, 0x03, 0x00, 0x03, 0x0C, 0x00, 0x11] = .ok (.writeBegin 0x01 3 [0x03, 0x0C, 0x00], [0x11]) ∧
  decode [0x21] = .ok (.rxByte, []) ∧
  decode [0x31] = .ok (.hostwakeExit, []) ∧
  decode [0x40, 0x04, 0x41] = .ok (.envRxArrive 0x04, [0x41]) ∧
  decode [0x16] = .ok (.unusedTag14 2, [])

/-! ## The step -/

/-- A step runs the decoded operation, with the script moved past its bytes. -/
def Obligations.StepRunsTheDecodedOperation : Prop :=
  ∀ (s : State) (i : Instr) (rest : List Byte), decode s.script = .ok (i, rest) →
    step s = exec i { s with script := rest }

/-- With no operation scheduled nothing happens (the model's choice, log 3); an operation cut short is refused by the
decoder, in particular a `WRITE_BEGIN` with fewer than `length` bytes of data (R155). -/
def Obligations.StepIdlesOnEmptyAndRefusesTruncated : Prop :=
  (∀ s : State, s.script = [] → step s = .next s) ∧
  (∀ (s : State) (t : Byte) (len : Half) (data : List Byte),
    s.script = 0x10 :: t :: loByte len :: hiByte len :: data → data.length < len.toNat →
    step s = .refused (.undecodable .truncated)) ∧
  (∀ s : State, s.script = [0x40] → step s = .refused (.undecodable .truncated))

/-- R83: a tag that names no operation is refused and takes no step. The rows `unusedTag04`, `unusedTag08`, `unusedTag13`,
`unusedTag14`, `unusedTag18`, `unusedTag23`, `unusedTag24`, `unusedTag28`, `unusedTag32`, `unusedTag34`, `unusedTag38`,
`unusedTag42`, `unusedTag44`, `unusedTag48`, `unusedTag50`, `unusedTag60`, `unusedTag80` are those with no agent. -/
def Obligations.UnusedTagsAreRefused : Prop :=
  ∀ (i : Instr) (s : State), i.agent = none → ∃ t, encode i = [t] ∧ exec i s = .refused (.unusedTag t)

/-! ## RESET -/

/-- R230: the reset value of every element that has one, in `State.reset` and after every `RESET`; `faults` and `trace`
are empty at the first reset and kept by a later one, to which a held buffer adds its `Free`. -/
def Obligations.ResetValuesOfEveryElement : Prop :=
  (∀ t : State, (t = State.reset ∨ ∃ s, exec .reset s = .next t) →
    t.rxState = .idle ∧ t.hdrCursor = 0 ∧ t.countdown = 0 ∧ t.pktBuf = none ∧ t.pktSize = 0 ∧ t.wrCursor = 0 ∧
    t.badTypeCount = 0 ∧ t.allocFailCount = 0 ∧ t.initState = .uninit ∧ t.uartCfg = none ∧ t.rxIrqArmed = false ∧
    t.hwIrqArmed = false ∧ t.devWake = true ∧ t.sleepLocked = false ∧ t.isrPhase = .none ∧ t.hwPending = false ∧
    t.txPhase = .idle ∧ t.txIdx = 0 ∧ t.txData = [] ∧ t.rxFifo = [] ∧ t.mem = []) ∧
  (State.reset.faults = ⟨false, false⟩ ∧ State.reset.trace = []) ∧
  (∀ s : State, ∃ t, exec .reset s = .next t ∧ t.faults = s.faults ∧
    t.trace = s.trace ++ (match s.pktBuf with | some h => [.free h] | none => []))

/-- The model's choice (log 1, log 5): `RESET` does not touch the model's own fields. -/
def Obligations.ResetKeepsTheScriptAndTheDraws : Prop :=
  ∀ s : State, ∃ t, exec .reset s = .next t ∧ t.script = s.script ∧ t.allocDraws = s.allocDraws ∧
    t.readyDraws = s.readyDraws ∧ t.spuriousDraws = s.spuriousDraws ∧ t.drawCount = s.drawCount

/-! ## THREAD -/

/-- R150: `INIT` before any other, and its tag. -/
def Obligations.InitConfiguresAndArms : Prop :=
  HasTag 0x01 .init ∧
  ∀ s : State, s.isrPhase = .none → s.initState = .uninit →
    exec .init s = .next { s with
      uartCfg := some ⟨Config.baud, 8, .none, 1, Config.hwFlow⟩
      trace := s.trace ++ [.uartConfig ⟨Config.baud, 8, .none, 1, Config.hwFlow⟩]
      rxIrqArmed := true
      hwIrqArmed := if Config.deepSleep then true else s.hwIrqArmed
      initState := .settling }

/-- R152. -/
def Obligations.SecondInitRaisesInitTwice : Prop :=
  ∀ s : State, s.isrPhase = .none → s.initState ≠ .uninit →
    exec .init s = .next { s with
      faults := { s.faults with initTwice := true }
      trace := s.trace ++ [.fault .initTwice] }

/-- R151, the tag included. -/
def Obligations.InitSettleDeassertsDeviceWake : Prop :=
  HasTag 0x02 .initSettle ∧
  ∀ s : State, s.isrPhase = .none → s.initState = .settling →
    exec .initSettle s = .next { s with
      devWake := false, trace := s.trace ++ [.devWake false], initState := .ready }

/-- R153: in every state; and its tag. -/
def Obligations.TerminateChangesNothing : Prop :=
  HasTag 0x03 .terminate ∧
  ∀ s : State, exec .terminate s = .next s

/-- R155: any type byte, any `length`, `data` of that length; the encoding; and data cut short is no operation. -/
def Obligations.WriteBeginCapturesTheFrame : Prop :=
  ∀ (type : Byte) (length : Half) (data : List Byte),
    (data.length = length.toNat →
      (∀ rest, decode (0x10 :: type :: loByte length :: hiByte length :: (data ++ rest)) =
        .ok (.writeBegin type length data, rest)) ∧
      ∀ s : State, s.isrPhase = .none → s.initState = .ready → s.txPhase = .idle →
        exec (.writeBegin type length data) s = .next { s with
          txType := type, txLen := length, txData := data, txIdx := 0,
          devWake := true, trace := s.trace ++ [.devWake true], txPhase := .type }) ∧
    (data.length < length.toNat →
      decode (0x10 :: type :: loByte length :: hiByte length :: data) = .error .truncated)

/-- R154: before `READY`, the settle delay included. -/
def Obligations.WriteBeforeReadyRaisesFault : Prop :=
  ∀ (s : State) (type : Byte) (length : Half) (data : List Byte), s.isrPhase = .none → s.initState ≠ .ready →
    exec (.writeBegin type length data) s = .next { s with
      faults := { s.faults with writeBeforeInit := true }
      trace := s.trace ++ [.fault .writeBeforeInit] }

/-- R156, transmit-ready: the type byte first, then the data byte `tx_idx` selects. `readyDrawn` is `s` with one
transmit-ready draw used. -/
def Obligations.WriteByteTransmitsOneByte : Prop :=
  (∀ s : State, s.isrPhase = .none → s.txPhase = .type → s.uartReady = true →
    exec .writeByte s = .next { s.readyDrawn with
      trace := s.trace ++ [.txByte s.txType]
      txPhase := if s.txLen = 0 then .done else .data }) ∧
  (∀ (s : State) (b : Byte), s.isrPhase = .none → s.txPhase = .data → s.uartReady = true →
    s.txData[s.txIdx.toNat]? = some b →
    exec .writeByte s = .next { s.readyDrawn with
      trace := s.trace ++ [.txByte b]
      txIdx := s.txIdx + 1
      txPhase := if s.txIdx + 1 = s.txLen then .done else .data })

/-- R158: while the UART is not transmit-ready nothing is sent and nothing changes; only a draw is used. -/
def Obligations.WriteByteWaitsForTheUart : Prop :=
  ∀ s : State, s.isrPhase = .none → s.txPhase = .type ∨ s.txPhase = .data → s.uartReady = false →
    exec .writeByte s = .next s.readyDrawn ∧
    s.readyDrawn = { s with readyDraws := s.readyDraws.tail, drawCount := s.readyDrawn.drawCount }

/-- R157, the tag included. -/
def Obligations.WriteEndReturnsTheLength : Prop :=
  HasTag 0x12 .writeEnd ∧
  ∀ s : State, s.isrPhase = .none → s.txPhase = .done →
    exec .writeEnd s = .next { s with
      devWake := false, trace := s.trace ++ [.devWake false, .writeReturn s.txLen], txPhase := .idle }

/-- R155 to R157, R159: a write that no handler interrupts, on a UART that is ready each time, puts the type byte and then
the data on the line in index order, and returns `length`. -/
def Obligations.CompletedWriteSendsTheWholeFrame : Prop :=
  ∀ (s : State) (type : Byte) (length : Half) (data : List Byte) (later : List Bool),
    s.isrPhase = .none → s.initState = .ready → s.txPhase = .idle → data.length = length.toNat →
    s.readyDraws = List.replicate (1 + data.length) true ++ later →
    runOps (.writeBegin type length data :: (List.replicate (1 + data.length) .writeByte ++ [.writeEnd])) s =
      .next { s with
        txType := type, txLen := length, txData := data, txIdx := length, devWake := false, readyDraws := later,
        trace := s.trace ++ ([.devWake true, .txByte type] ++ data.map .txByte ++
          [.devWake false, .writeReturn length]) }

/-! ## Handlers -/

/-- R160: entry of the receive handler, with a byte available or as a drawn spurious entry; and its tag. -/
def Obligations.RxirqEnterAssertsDeviceWake : Prop :=
  HasTag 0x20 .rxirqEnter ∧
  (∀ s : State, s.isrPhase = .none → s.rxIrqArmed = true → s.rxFifo ≠ [] →
    exec .rxirqEnter s = .next { s with
      devWake := true, trace := s.trace ++ [.devWake true], isrPhase := .rx }) ∧
  (∀ s : State, s.isrPhase = .none → s.rxIrqArmed = true → s.rxFifo = [] → s.spurious = true →
    exec .rxirqEnter s = .next { s.spuriousDrawn with
      devWake := true, trace := s.trace ++ [.devWake true], isrPhase := .rx })

/-- R163: the only effect of a spurious entry is the pair of device-wake events. -/
def Obligations.SpuriousEntryOnlyTogglesDeviceWake : Prop :=
  ∀ s : State, s.isrPhase = .none → s.rxIrqArmed = true → s.rxFifo = [] → s.spurious = true →
    runOps [.rxirqEnter, .rxirqExit] s = .next { s.spuriousDrawn with
      devWake := false, trace := s.trace ++ [.devWake true, .devWake false] }

/-- R162, the tag included; with a byte still available the handler does not exit. -/
def Obligations.RxirqExitDeassertsDeviceWake : Prop :=
  HasTag 0x22 .rxirqExit ∧
  (∀ s : State, s.isrPhase = .rx → s.rxFifo = [] →
    exec .rxirqExit s = .next { s with
      devWake := false, trace := s.trace ++ [.devWake false], isrPhase := .none }) ∧
  (∀ s t : State, s.isrPhase = .rx → s.rxFifo ≠ [] → exec .rxirqExit s = .next t → t.isrPhase = .rx)

/-- R164: whether or not a byte is available; and its tag. -/
def Obligations.HostwakeFallTakesTheSleepLock : Prop :=
  HasTag 0x30 .hostwakeFall ∧
  ∀ s : State, s.isrPhase = .none → s.hwPending = true →
    exec .hostwakeFall s = .next { s with
      hwPending := false, sleepLocked := true, devWake := true,
      trace := s.trace ++ [.sleepLock, .devWake true], isrPhase := .hostWake }

/-- R166: the lock is released after the deassert; and the tag. -/
def Obligations.HostwakeExitReleasesTheSleepLock : Prop :=
  HasTag 0x31 .hostwakeExit ∧
  ∀ s : State, s.isrPhase = .hostWake → s.rxFifo = [] →
    exec .hostwakeExit s = .next { s with
      devWake := false, sleepLocked := false,
      trace := s.trace ++ [.devWake false, .sleepUnlock], isrPhase := .none }

/-! ## ENV -/

/-- R167: at any step at which the receive handler is armed; and the encoding `40 b`. -/
def Obligations.ArrivingByteJoinsTheFifo : Prop :=
  (∀ (b : Byte) (rest : List Byte), decode (0x40 :: b :: rest) = .ok (.envRxArrive b, rest)) ∧
  ∀ (s : State) (b : Byte), s.rxIrqArmed = true →
    exec (.envRxArrive b) s = .next { s with rxFifo := s.rxFifo ++ [b] }

/-- R165: always; an edge while the handler is not armed is lost; and the tag. -/
def Obligations.HostwakeEdgeSetsThePendingBit : Prop :=
  HasTag 0x41 .envHostwakeEdge ∧
  ∀ s : State,
    (s.hwIrqArmed = true → exec .envHostwakeEdge s = .next { s with hwPending := true }) ∧
    (s.hwIrqArmed = false → exec .envHostwakeEdge s = .next s)

/-- R37, R64, R161: bytes leave the receive FIFO in arrival order and none is lost. Whatever the operation but `RESET`, the
FIFO is as before, or has the arrived byte at its end, or has lost its head to a running handler. -/
def Obligations.FifoIsFirstInFirstOut : Prop :=
  ∀ (i : Instr) (s t : State), i ≠ .reset → exec i s = .next t →
    t.rxFifo = s.rxFifo ∨ (∃ b, i = .envRxArrive b ∧ t.rxFifo = s.rxFifo ++ [b]) ∨
    (∃ b, s.rxFifo = b :: t.rxFifo ∧ s.isrPhase ≠ .none)

/-! ## RX_BYTE, case by case -/

/-- R100: in `IDLE` every byte is taken as a type byte; `RX_BYTE` with its tag, and its row `RX_BYTE.IDLE`. -/
def Obligations.IdleByteIsTakenAsType : Prop :=
  HasTag 0x21 .rxByte ∧
  ∀ (s : State) (b : Byte) (rest : List Byte), s.isrPhase ≠ .none → s.rxFifo = b :: rest → s.rxState = .idle →
    exec .rxByte s = .next { s with rxFifo := rest, pktType := b, hdrCursor := 0, rxState := .header } ∧
    exec .rxByteIdle s = .next { s with rxFifo := rest, pktType := b, hdrCursor := 0, rxState := .header }

/-- R101, R103, R161: a header byte that does not complete the header; `RX_BYTE` and `RX_BYTE.HEADER.partial`. -/
def Obligations.PartialHeaderByteIsStored : Prop :=
  ∀ (s : State) (b : Byte) (rest : List Byte) (p : PacketType), s.isrPhase ≠ .none → s.rxFifo = b :: rest →
    s.rxState = .header → packetType? s.pktType = some p → s.hdrCursor.toNat + 1 < p.hdrLen →
    ∃ hdr : HeaderBuffer, hdr.bytes = s.hdrBuf.bytes.set s.hdrCursor.toNat b ∧
      exec .rxByte s = .next { s with rxFifo := rest, hdrBuf := hdr, hdrCursor := s.hdrCursor + 1 } ∧
      exec .rxByteHeaderPartial s = .next { s with rxFifo := rest, hdrBuf := hdr, hdrCursor := s.hdrCursor + 1 }

/-- R101, R104 to R106, R161: the byte that completes a header with a payload, when the allocator grants: the exact size
from the right pool, the header copied to the buffer's first offsets, and no other buffer touched; `RX_BYTE` and
`RX_BYTE.HEADER.complete`. -/
def Obligations.CompletedHeaderTakesABuffer : Prop :=
  ∀ (s : State) (b : Byte) (rest : List Byte) (p : PacketType) (hdr : HeaderBuffer) (h : Nat),
    s.isrPhase ≠ .none → s.rxFifo = b :: rest → s.rxState = .header → packetType? s.pktType = some p →
    s.hdrCursor.toNat + 1 = p.hdrLen → hdr.bytes = s.hdrBuf.bytes.set s.hdrCursor.toNat b →
    s.allocAnswer = .ok h → p.lenField hdr ≠ 0 →
    ∃ t : State, exec .rxByte s = .next t ∧ exec .rxByteHeaderComplete s = .next t ∧
      t = { s.allocDrawn with
        rxFifo := rest, hdrBuf := hdr, hdrCursor := s.hdrCursor + 1
        trace := s.trace ++ [.alloc p.pool (p.bufferSize (p.lenField hdr)) (.ok h)]
        mem := t.mem, pktBuf := some h, pktSize := p.bufferSize (p.lenField hdr)
        wrCursor := BitVec.ofNat 17 p.hdrLen, countdown := p.lenField hdr, rxState := .data } ∧
      (p.bufferSize (p.lenField hdr)).toNat = p.hdrLen + (p.lenField hdr).toNat ∧
      Memory.size? s.mem h = none ∧ Memory.size? t.mem h = some (p.bufferSize (p.lenField hdr)) ∧
      (∀ off, off < p.hdrLen → Memory.read t.mem h off = hdr.bytes[off]?) ∧
      (∀ off, p.hdrLen ≤ off → Memory.read t.mem h off = none) ∧
      (∀ h' off, h' ≠ h → Memory.read t.mem h' off = Memory.read s.mem h' off)

/-- R106, R130, R134: a header that announces no payload is delivered in the step of its last byte, without `DATA`;
`RX_BYTE` and `RX_BYTE.HEADER.complete`. -/
def Obligations.ZeroPayloadPacketIsDeliveredAtOnce : Prop :=
  ∀ (s : State) (b : Byte) (rest : List Byte) (p : PacketType) (hdr : HeaderBuffer) (h : Nat),
    s.isrPhase ≠ .none → s.rxFifo = b :: rest → s.rxState = .header → packetType? s.pktType = some p →
    s.hdrCursor.toNat + 1 = p.hdrLen → hdr.bytes = s.hdrBuf.bytes.set s.hdrCursor.toNat b →
    s.allocAnswer = .ok h → p.lenField hdr = 0 →
    ∃ t : State, exec .rxByte s = .next t ∧ exec .rxByteHeaderComplete s = .next t ∧
      t = { s.allocDrawn with
        rxFifo := rest, hdrBuf := hdr, hdrCursor := s.hdrCursor + 1
        trace := s.trace ++ [.alloc p.pool (BitVec.ofNat 17 p.hdrLen) (.ok h),
          .deliver s.pktType (hdr.bytes.take p.hdrLen)]
        mem := t.mem, pktBuf := none, pktSize := BitVec.ofNat 17 p.hdrLen
        wrCursor := BitVec.ofNat 17 p.hdrLen, countdown := 0, rxState := .idle } ∧
      (∀ h' off, Memory.read t.mem h' off = Memory.read s.mem h' off)

/-- R105, R106: the allocator answers `Fail`: the packet is lost, the failure counted, `ERROR` entered, and no buffer
taken; `RX_BYTE` and `RX_BYTE.HEADER.complete`. -/
def Obligations.FailedAllocationEntersError : Prop :=
  ∀ (s : State) (b : Byte) (rest : List Byte) (p : PacketType) (hdr : HeaderBuffer),
    s.isrPhase ≠ .none → s.rxFifo = b :: rest → s.rxState = .header → packetType? s.pktType = some p →
    s.hdrCursor.toNat + 1 = p.hdrLen → hdr.bytes = s.hdrBuf.bytes.set s.hdrCursor.toNat b →
    s.allocAnswer = .fail →
    ∃ t : State, exec .rxByte s = .next t ∧ exec .rxByteHeaderComplete s = .next t ∧
      t = { s.allocDrawn with
        rxFifo := rest, hdrBuf := hdr, hdrCursor := s.hdrCursor + 1
        trace := s.trace ++ [.alloc p.pool (p.bufferSize (p.lenField hdr)) .fail]
        allocFailCount := s.allocFailCount + 1, rxState := .error }

/-- R102: a byte after an invalid type byte is discarded and counted, whatever it is; `RX_BYTE` with its tag, and its row
`RX_BYTE.HEADER.badtype`. -/
def Obligations.BadTypeReturnsToIdle : Prop :=
  HasTag 0x21 .rxByte ∧
  ∀ (s : State) (b : Byte) (rest : List Byte), s.isrPhase ≠ .none → s.rxFifo = b :: rest → s.rxState = .header →
    validType s.pktType = false →
    exec .rxByte s = .next { s with rxFifo := rest, badTypeCount := s.badTypeCount + 1, rxState := .idle } ∧
    exec .rxByteHeaderBadtype s =
      .next { s with rxFifo := rest, badTypeCount := s.badTypeCount + 1, rxState := .idle }

/-- R110, R161: a payload byte that is not the last is written at `wr_cursor` and every other byte of every buffer is as
before; `RX_BYTE` and `RX_BYTE.DATA.more`. -/
def Obligations.PayloadByteIsAppended : Prop :=
  ∀ (s : State) (b : Byte) (rest : List Byte) (h : Nat) (size : BitVec 17), s.isrPhase ≠ .none →
    s.rxFifo = b :: rest → s.rxState = .data → s.pktBuf = some h → 1 < s.countdown.toNat →
    Memory.size? s.mem h = some size → s.wrCursor.toNat < size.toNat →
    ∃ t : State, exec .rxByte s = .next t ∧ exec .rxByteDataMore s = .next t ∧
      t = { s with rxFifo := rest, mem := t.mem, wrCursor := s.wrCursor + 1, countdown := s.countdown - 1 } ∧
      Memory.read t.mem h s.wrCursor.toNat = some b ∧
      (∀ h' off, (h', off) ≠ (h, s.wrCursor.toNat) → Memory.read t.mem h' off = Memory.read s.mem h' off)

/-- R110, R130, R134, R135, R161: the last payload byte delivers the packet in the same step, and the block gives the buffer
up; `RX_BYTE` and `RX_BYTE.DATA.last`. -/
def Obligations.LastPayloadByteDeliversThePacket : Prop :=
  ∀ (s : State) (b : Byte) (rest : List Byte) (h : Nat) (size : BitVec 17) (bytes : List Byte), s.isrPhase ≠ .none →
    s.rxFifo = b :: rest → s.rxState = .data → s.pktBuf = some h → s.countdown = 1 →
    Memory.size? s.mem h = some size → s.wrCursor.toNat < size.toNat → s.pktSize.toNat = s.wrCursor.toNat + 1 →
    Memory.readList s.mem h 0 s.wrCursor.toNat = some bytes →
    ∃ t : State, exec .rxByte s = .next t ∧ exec .rxByteDataLast s = .next t ∧
      t = { s with
        rxFifo := rest, mem := t.mem, wrCursor := s.wrCursor + 1, countdown := 0, pktBuf := none, rxState := .idle,
        trace := s.trace ++ completionEvents s.pktType (bytes ++ [b]) } ∧
      (∀ off, Memory.read t.mem h off = none) ∧
      (∀ h' off, h' ≠ h → Memory.read t.mem h' off = Memory.read s.mem h' off)

/-- R111: in `ERROR` every byte is dropped without an event, `RX_BYTE` with its tag, and its row `RX_BYTE.ERROR`; no
instruction but `RESET` leaves `ERROR`. -/
def Obligations.ErrorIsLeftOnlyByReset : Prop :=
  HasTag 0x21 .rxByte ∧
  (∀ (s : State) (b : Byte) (rest : List Byte), s.isrPhase ≠ .none → s.rxFifo = b :: rest → s.rxState = .error →
    exec .rxByte s = .next { s with rxFifo := rest } ∧ exec .rxByteError s = .next { s with rxFifo := rest }) ∧
  (∀ (i : Instr) (s t : State), s.rxState = .error → i ≠ .reset → exec i s = .next t → t.rxState = .error) ∧
  (∀ s : State, ∃ t, exec .reset s = .next t ∧ t.rxState = .idle)

/-! ## The Complete resolution -/

/-- R130, R133, R134, R136: a held packet that is a vendor Command-Complete event is injected and then delivered, and the
block returns to `IDLE`; the row `COMPLETE.vendor_cc`, in the middle of an `RX_BYTE` step (log 14). -/
def Obligations.VendorCommandCompleteIsInjectedThenDelivered : Prop :=
  ∀ (s : State) (h : Nat) (bytes data : List Byte) (len num lo hi status : Byte),
    s.rxState = .complete → s.pktBuf = some h → s.pktType = 0x04 →
    bytes = 0x0E :: len :: num :: lo :: hi :: status :: data →
    Memory.readList s.mem h 0 s.pktSize.toNat = some bytes → 4 ≤ len.toNat → hi.extractLsb' 2 6 = 0x3F#6 →
    ∃ t : State, exec .completeVendorCc s = .next t ∧
      t = { s with
        trace := s.trace ++ [.inject (hi ++ lo) status (len - 4) data, .deliver 0x04 bytes]
        mem := t.mem, pktBuf := none, rxState := .idle } ∧
      (∀ off, Memory.read t.mem h off = none) ∧
      (∀ h' off, h' ≠ h → Memory.read t.mem h' off = Memory.read s.mem h' off)

/-- R130, R134, R135, R137, R139: every other held packet is delivered alone, and with no buffer nothing is emitted; the row
`COMPLETE.plain`, in the middle of an `RX_BYTE` step (log 14). -/
def Obligations.PlainPacketIsDeliveredAlone : Prop :=
  (∀ (s : State) (h : Nat) (bytes : List Byte), s.rxState = .complete → s.pktBuf = some h →
    Memory.readList s.mem h 0 s.pktSize.toNat = some bytes → isVendorCc s.pktType bytes = false →
    ∃ t : State, exec .completePlain s = .next t ∧
      t = { s with
        trace := s.trace ++ [.deliver s.pktType bytes], mem := t.mem, pktBuf := none, rxState := .idle } ∧
      (∀ off, Memory.read t.mem h off = none) ∧
      (∀ h' off, h' ≠ h → Memory.read t.mem h' off = Memory.read s.mem h' off)) ∧
  (∀ s : State, s.rxState = .complete → s.pktBuf = none →
    exec .completePlain s = .next { s with pktBuf := none, rxState := .idle })

/-- R131, R132: exactly the packets that meet (a) to (d) are vendor Command-Complete events; an Event has the size its
length byte announces (R55). -/
def Obligations.VendorCommandCompleteIsRecognisedExactly : Prop :=
  ∀ (ty len : Byte) (bytes : List Byte), bytes[1]? = some len → (ty = 0x04 → bytes.length = 2 + len.toNat) →
    (isVendorCc ty bytes = true ↔
      ty = 0x04 ∧ bytes[0]? = some 0x0E ∧ 4 ≤ len.toNat ∧
      ∃ lo hi : Byte, bytes[3]? = some lo ∧ bytes[4]? = some hi ∧ (hi ++ lo : BitVec 16).extractLsb' 10 6 = 0x3F#6)

/-! ## The rows of the type byte -/

/-- R72, R100, R102: the rows `h4Cmd`, `h4Acl`, `h4Evt`, `h4SyncInvalid`, `h4Invalid00`, `h4Invalid05`, `h4Invalid06`,
`h4Invalid08`, `h4Invalid10`, `h4Invalid20`, `h4Invalid40`, `h4Invalid80`: in `IDLE` the row's byte is taken as the type;
in `HEADER` a row of an invalid type is `BAD_TYPE`. -/
def Obligations.FrameRowsTakeTheirTypeByte : Prop :=
  (∀ (i : Instr) (t : Byte) (s : State) (rest : List Byte), encodeType i = some t → s.isrPhase ≠ .none →
    s.rxFifo = t :: rest → s.rxState = .idle →
    exec i s = .next { s with rxFifo := rest, pktType := t, hdrCursor := 0, rxState := .header }) ∧
  (∀ (i : Instr) (t b : Byte) (s : State) (rest : List Byte), encodeType i = some t → validType t = false →
    s.isrPhase ≠ .none → s.rxFifo = b :: rest → s.rxState = .header → s.pktType = t →
    exec i s = .next { s with rxFifo := rest, badTypeCount := s.badTypeCount + 1, rxState := .idle })

/-- R84: the table names a row for every case a byte can meet, and `RX_BYTE` is that row; the Complete resolution is the
row `COMPLETE.vendor_cc` or `COMPLETE.plain`. That a row acts on the state its condition selects is the model's choice
(log 13, log 14). -/
def Obligations.RxByteIsItsSelectedRow : Prop :=
  (∀ (s : State) (i : Instr), s.rxRow? = some i → exec .rxByte s = exec i s) ∧
  (∀ s : State, ReassemblerInv s → ∃ i, s.rxRow? = some i ∧ i.format = .rxSel) ∧
  (∀ (s : State) (h : Nat) (bytes : List Byte), s.rxState = .complete → s.pktBuf = some h →
    s.packetBytes h = some bytes →
    complete s = exec (if isVendorCc s.pktType bytes then .completeVendorCc else .completePlain) s) ∧
  (∀ s : State, s.rxState = .complete → s.pktBuf = none → complete s = exec .completePlain s)

/-- R72, R84: `RX_BYTE` is the row of the type byte of the frame that the received byte belongs to. That a row of the type
byte acts so is the model's choice (log 12). -/
def Obligations.RxByteIsItsFrameRow : Prop :=
  ∀ (s : State) (b t : Byte) (rest : List Byte) (i : Instr), s.isrPhase ≠ .none → s.rxFifo = b :: rest →
    s.frameType? b = some t → decodeType t = some i → exec .rxByte s = exec i s

/-! ## Formats -/

/-- R73, R74, R79: the valid types, their header lengths and their length fields; and the pool each is allocated from, which
R9 and R105 give. -/
def Obligations.HeaderFormatsOfTheThreeTypes : Prop :=
  (∀ t : Byte, validType t = true ↔ t = 0x01 ∨ t = 0x02 ∨ t = 0x04) ∧
  (∀ hdr : HeaderBuffer,
    (∃ p, packetType? 0x01 = some p ∧ p.pool = .msg ∧ p.hdrLen = 3 ∧ p.lenField hdr = hdr.b2.zeroExtend 16) ∧
    (∃ p, packetType? 0x02 = some p ∧ p.pool = .acl ∧ p.hdrLen = 4 ∧ p.lenField hdr = hdr.b3 ++ hdr.b2) ∧
    (∃ p, packetType? 0x04 = some p ∧ p.pool = .msg ∧ p.hdrLen = 2 ∧ p.lenField hdr = hdr.b1.zeroExtend 16))

/-- R80: the fields of an opcode, and the vendor test in both its forms. -/
def Obligations.OpcodeFieldsAndVendorTest : Prop :=
  ∀ op : Half, op = ogf op ++ ocf op ∧ (vendorOpcode op = true ↔ ogf op = 0x3F#6) ∧
    (vendorOpcode op = true ↔ op &&& 0xFC00#16 = 0xFC00#16)

/-- R32, R33: `dev_wake` is one bit without nesting. Whatever the instruction but `RESET`, the bit is after it what its last
device-wake event says, and unchanged without one. Each assert (`WRITE_BEGIN`, `RXIRQ_ENTER`, `HOSTWAKE_FALL`) and each
deassert (`INIT_SETTLE`, `WRITE_END`, `RXIRQ_EXIT`, `HOSTWAKE_EXIT`) that is enabled sets the bit and emits its one event
whatever the bit held and whatever transfer is in progress. The pin has the inverted level in the reference polarity. -/
def Obligations.DeviceWakeIsOneBitWithoutNesting : Prop :=
  (∀ (i : Instr) (s t : State), i ≠ .reset → exec i s = .next t →
    t.devWake = ((newEvents s t).filterMap Event.wakeLevel?).getLast?.getD s.devWake) ∧
  (∀ (s : State) (type : Byte) (length : Half) (data : List Byte),
    s.isrPhase = .none → s.initState = .ready → s.txPhase = .idle →
    ∃ t, exec (.writeBegin type length data) s = .next t ∧ t.devWake = true ∧ newEvents s t = [.devWake true]) ∧
  (∀ s : State, s.isrPhase = .none → s.rxIrqArmed = true → s.rxFifo ≠ [] ∨ s.spurious = true →
    ∃ t, exec .rxirqEnter s = .next t ∧ t.devWake = true ∧ newEvents s t = [.devWake true]) ∧
  (∀ s : State, s.isrPhase = .none → s.hwPending = true →
    ∃ t, exec .hostwakeFall s = .next t ∧ t.devWake = true ∧ newEvents s t = [.sleepLock, .devWake true]) ∧
  (∀ s : State, s.isrPhase = .none → s.initState = .settling →
    ∃ t, exec .initSettle s = .next t ∧ t.devWake = false ∧ newEvents s t = [.devWake false]) ∧
  (∀ s : State, s.isrPhase = .none → s.txPhase = .done →
    ∃ t, exec .writeEnd s = .next t ∧ t.devWake = false ∧ newEvents s t = [.devWake false, .writeReturn s.txLen]) ∧
  (∀ s : State, s.isrPhase = .rx → s.rxFifo = [] →
    ∃ t, exec .rxirqExit s = .next t ∧ t.devWake = false ∧ newEvents s t = [.devWake false]) ∧
  (∀ s : State, s.isrPhase = .hostWake → s.rxFifo = [] →
    ∃ t, exec .hostwakeExit s = .next t ∧ t.devWake = false ∧ newEvents s t = [.devWake false, .sleepUnlock]) ∧
  (∀ s : State, s.devWakePin = !s.devWake)

/-! ## Operations that are not enabled -/

/-- The model's choice (log 2): an operation whose enabling condition fails changes nothing; of a spurious entry that is not
drawn, only the draw is used (log 5). -/
def Obligations.DisabledOperationsTakeNoStep : Prop :=
  ∀ s : State,
    (s.initState ≠ .settling → exec .initSettle s = .next s) ∧
    (∀ type length data, s.initState = .ready → s.txPhase ≠ .idle → exec (.writeBegin type length data) s = .next s) ∧
    (s.txPhase ≠ .type → s.txPhase ≠ .data → exec .writeByte s = .next s) ∧
    (s.txPhase ≠ .done → exec .writeEnd s = .next s) ∧
    (s.rxIrqArmed = false → exec .rxirqEnter s = .next s ∧ ∀ b, exec (.envRxArrive b) s = .next s) ∧
    (s.isrPhase = .none → s.rxIrqArmed = true → s.rxFifo = [] → s.spurious = false →
      exec .rxirqEnter s = .next s.spuriousDrawn) ∧
    (s.isrPhase = .none ∨ s.rxFifo = [] → exec .rxByte s = .next s) ∧
    (s.isrPhase ≠ .rx ∨ s.rxFifo ≠ [] → exec .rxirqExit s = .next s) ∧
    (s.hwPending = false → exec .hostwakeFall s = .next s) ∧
    (s.isrPhase ≠ .hostWake ∨ s.rxFifo ≠ [] → exec .hostwakeExit s = .next s)

/-- R210: while a handler runs, no operation of THREAD takes a step and no handler is entered. -/
def Obligations.NoThreadStepAndNoEntryInsideAHandler : Prop :=
  ∀ (i : Instr) (s : State), s.isrPhase ≠ .none →
    i.agent = some .thread ∨ i = .rxirqEnter ∨ i = .hostwakeFall → exec i s = .next s

/-! ## Rules about the whole machine -/

/-- R211: no row of ISR touches THREAD's part of the state. -/
def Obligations.HandlersLeaveThreadStateAlone : Prop :=
  ∀ (i : Instr) (s t : State), i.agent = some .isr → exec i s = .next t → t.threadPart = s.threadPart

/-- R35: no operation removes a fault code, so a state with a fault never becomes a good one. -/
def Obligations.FaultsAreSticky : Prop :=
  ∀ (i : Instr) (s t : State), exec i s = .next t →
    (∀ c, s.faults.has c = true → t.faults.has c = true) ∧ (s.faultFree = false → t.faultFree = false)

/-- R6, R65: the trace only grows, at its end. -/
def Obligations.TraceOnlyGrows : Prop :=
  ∀ (i : Instr) (s t : State), exec i s = .next t → t.trace = s.trace ++ newEvents s t

/-- R33, R6: every change of the device-wake output, but the one `RESET` makes, is an event of the step. -/
def Obligations.DeviceWakeChangesAreEvents : Prop :=
  ∀ (i : Instr) (s t : State), i ≠ .reset → exec i s = .next t → t.devWake ≠ s.devWake →
    Event.devWake t.devWake ∈ newEvents s t

/-- R20, R138: among the operations only `RX_BYTE` and `RESET` change S1 to S10 or E3 or emit `Alloc`, `Free`, `Inject`,
`Deliver`; and `RX_BYTE` does so only while a handler runs. -/
def Obligations.OnlyReceptionChangesTheReassembler : Prop :=
  ∀ (i : Instr) (s t : State), i.format = .opTag → i ≠ .reset → exec i s = .next t →
    (i ≠ .rxByte ∨ s.isrPhase = .none) →
    t.reassembly = s.reassembly ∧ ∀ e ∈ newEvents s t, e.ofReassembler = false

/-- R107: what `RX_BYTE` does to the reassembler, and the events it emits, depend only on the reassembler, the byte and
the answer of `Alloc`: not on the handler, on a write in progress, on what else stands in the FIFO, or on the trace. -/
def Obligations.RxByteDependsOnlyOnReassemblerAndByte : Prop :=
  ∀ (s s' t : State) (b : Byte) (rest rest' : List Byte), s.isrPhase ≠ .none → s'.isrPhase ≠ .none →
    s.rxFifo = b :: rest → s'.rxFifo = b :: rest' → s.reassembly = s'.reassembly → s.allocAnswer = s'.allocAnswer →
    exec .rxByte s = .next t →
    ∃ t', exec .rxByte s' = .next t' ∧ t'.reassembly = t.reassembly ∧ newEvents s' t' = newEvents s t

/-- R29: the counters count modulo 2^32 and change the behaviour of no rule: a run with other counts goes the same way and
the counts keep their distance. -/
def Obligations.CountersNeverChangeBehaviour : Prop :=
  countUp 0xFFFFFFFF#32 = 0 ∧
  ∀ (i : Instr) (s t : State) (a c : BitVec 32), i ≠ .reset → exec i s = .next t →
    exec i { s with badTypeCount := s.badTypeCount + a, allocFailCount := s.allocFailCount + c } =
      .next { t with badTypeCount := t.badTypeCount + a, allocFailCount := t.allocFailCount + c }

/-- R26, log 4: in `IDLE` or `ERROR` with no write in progress, nothing depends on the elements that have no reset value in
the spec: with other values there the operation goes on in the same way, and the states after differ at most there. -/
def Obligations.NothingDependsOnUnspecifiedResetValues : Prop :=
  ∀ (i : Instr) (s t : State) (ty txTy : Byte) (hdr : HeaderBuffer) (txLen : Half),
    i.format = .opTag → s.rxState = .idle ∨ s.rxState = .error → s.txPhase = .idle → exec i s = .next t →
    ∃ ty' txTy' hdr' txLen', exec i (s.withUnwritten ty hdr txTy txLen) = .next (t.withUnwritten ty' hdr' txTy' txLen') ∧
      (t.rxState = .header → ty' = t.pktType) ∧ (t.txPhase = .type → txTy' = t.txType ∧ txLen' = t.txLen)

/-! ## Invariants -/

/-- The invariants hold after reset. That `tx_data` has length `tx_len` there rests on the model's choice of 0 for `tx_len`
(log 4, DESIGN CHOICE, unsafe): R230 leaves S21 unspecified. -/
def Obligations.InvariantsHoldAtReset : Prop := ReassemblerInv State.reset ∧ TransportInv State.reset

/-- R27, R28, R54, R55: every step keeps the invariant of the reassembler, the canonical form of the memory included. -/
def Obligations.StepKeepsReassemblerInvariant : Prop :=
  ∀ s t : State, ReassemblerInv s → step s = .next t → ReassemblerInv t

/-- R31, R34, R38, R169: every step keeps the invariant of the transport wrapper. After `RESET`, that `tx_data` has length
`tx_len` rests on the model's choice of 0 for `tx_len` (log 4, DESIGN CHOICE, unsafe), not on these rules. -/
def Obligations.StepKeepsTransportInvariant : Prop :=
  ∀ s t : State, TransportInv s → step s = .next t → TransportInv t

/-- R27, R28, R51, R54: under the invariants no step stops with a fault of the model, whatever the script and the draws. -/
def Obligations.InvariantStatesNeverFault : Prop :=
  ∀ (s : State) (e : Fault), ReassemblerInv s → TransportInv s → step s ≠ .fault e

/-! ## Framing -/

/-- R70, R71, R107, R134: framing correctness. From `IDLE`, the bytes of one frame of a valid type, fed to `RX_BYTE` one by
one with a granted allocation, deliver exactly that packet, header and payload, after one `Alloc` of its size, and leave
the reassembler in `IDLE` with the bytes after the frame still to be read; nothing of the transport wrapper (S11 to S24)
changes. -/
def Obligations.OneFrameIsDeliveredAsOnePacket : Prop :=
  ∀ (s : State) (ty : Byte) (p : PacketType) (hdr : HeaderBuffer) (payload rest : List Byte) (h : Nat),
    s.isrPhase ≠ .none → s.rxState = .idle → packetType? ty = some p → payload.length = (p.lenField hdr).toNat →
    s.rxFifo = ty :: (hdr.bytes.take p.hdrLen ++ payload ++ rest) → s.allocAnswer = .ok h →
    ∃ t : State, runOps (List.replicate (1 + p.hdrLen + payload.length) .rxByte) s = .next t ∧
      t.rxState = .idle ∧ t.pktBuf = none ∧ t.rxFifo = rest ∧
      t.trace = s.trace ++ (.alloc p.pool (p.bufferSize (p.lenField hdr)) (.ok h) ::
        completionEvents ty (hdr.bytes.take p.hdrLen ++ payload)) ∧
      t.threadPart = s.threadPart ∧ t.isrPhase = s.isrPhase ∧ t.devWake = s.devWake ∧
      t.sleepLocked = s.sleepLocked ∧ t.hwPending = s.hwPending ∧ t.faults = s.faults ∧
      (∀ h' off, Memory.read t.mem h' off = Memory.read s.mem h' off)
end

