-- ==== Sys2Proof/Laws/Decode.lean ====
section
/-! SUPPORT. The laws of the encoding: byte order, and what the decoder of a script can answer. -/

namespace Sys2Proof

/-- R60: a 16-bit field is put together from its bytes. -/
@[simp] theorem halfLE_lo_hi (h : Half) : halfLE (loByte h) (hiByte h) = h := by
  apply BitVec.eq_of_toNat_eq
  have hl := h.isLt
  simp only [halfLE, loByte, hiByte, BitVec.toNat_append, BitVec.extractLsb'_toNat, Nat.shiftRight_zero]
  rw [← Nat.shiftLeft_add_eq_or_of_lt (by omega), Nat.shiftLeft_eq, Nat.shiftRight_eq_div_pow]
  omega

@[simp] theorem loByte_halfLE (lo hi : Byte) : loByte (halfLE lo hi) = lo := by
  apply BitVec.eq_of_toNat_eq
  have h1 := lo.isLt
  have h2 := hi.isLt
  simp only [halfLE, loByte, BitVec.toNat_append, BitVec.extractLsb'_toNat, Nat.shiftRight_zero]
  rw [← Nat.shiftLeft_add_eq_or_of_lt (by omega), Nat.shiftLeft_eq]
  omega

@[simp] theorem hiByte_halfLE (lo hi : Byte) : hiByte (halfLE lo hi) = hi := by
  apply BitVec.eq_of_toNat_eq
  have h1 := lo.isLt
  have h2 := hi.isLt
  simp only [halfLE, hiByte, BitVec.toNat_append, BitVec.extractLsb'_toNat]
  rw [← Nat.shiftLeft_add_eq_or_of_lt (by omega), Nat.shiftLeft_eq, Nat.shiftRight_eq_div_pow]
  omega

/-- What `WRITE_BEGIN` is read as. -/
theorem parseWriteBegin_eq_ok {bytes rest : List Byte} {i : Instr} :
    parseWriteBegin bytes = .ok (i, rest) ↔ ∃ t len data,
      i = .writeBegin t len data ∧ data.length = len.toNat ∧
      bytes = t :: loByte len :: hiByte len :: (data ++ rest) := by
  constructor
  · intro h
    unfold parseWriteBegin at h
    split at h
    · rename_i t lo hi tl
      split at h
      · rename_i hle
        obtain ⟨rfl, rfl⟩ := Prod.mk.inj (Except.ok.inj h)
        exact ⟨t, halfLE lo hi, _, rfl, by simpa using hle, by simp⟩
      · cases h
    · cases h
  · rintro ⟨t, len, data, rfl, hl, rfl⟩
    simp [parseWriteBegin, ← hl]

theorem parseRxArrive_eq_ok {bytes rest : List Byte} {i : Instr} :
    parseRxArrive bytes = .ok (i, rest) ↔ ∃ b, i = .envRxArrive b ∧ bytes = b :: rest := by
  cases bytes <;> simp [parseRxArrive, eq_comm]

theorem parseWriteBegin_append {bytes r : List Byte} {i : Instr} (hp : parseWriteBegin bytes = .ok (i, r))
    (rest : List Byte) : parseWriteBegin (bytes ++ rest) = .ok (i, r ++ rest) := by
  obtain ⟨ty, len, data, rfl, hl, rfl⟩ := parseWriteBegin_eq_ok.1 hp
  exact parseWriteBegin_eq_ok.2 ⟨ty, len, data, rfl, hl, by simp⟩

theorem parseRxArrive_append {bytes r : List Byte} {i : Instr} (hp : parseRxArrive bytes = .ok (i, r))
    (rest : List Byte) : parseRxArrive (bytes ++ rest) = .ok (i, r ++ rest) := by
  obtain ⟨b, rfl, rfl⟩ := parseRxArrive_eq_ok.1 hp
  exact parseRxArrive_eq_ok.2 ⟨b, rfl, rfl⟩

theorem oneByte_append {bytes r : List Byte} {i j : Instr} (hp : oneByte j bytes = .ok (i, r)) (rest : List Byte) :
    oneByte j (bytes ++ rest) = .ok (i, r ++ rest) := by
  obtain ⟨rfl, rfl⟩ := Prod.mk.inj (Except.ok.inj hp)
  rfl

/-- Every row reads its operands from the front: what follows an operation is not read. -/
theorem parse_append {row : TagRow} (hrow : row ∈ opTagRows) {t : Byte} {bytes r : List Byte} {i : Instr}
    (hp : row.parse t bytes = .ok (i, r)) (rest : List Byte) : row.parse t (bytes ++ rest) = .ok (i, r ++ rest) := by
  simp only [opTagRows, operationRows, unusedTagRows, List.cons_append, List.nil_append, List.mem_cons,
    List.not_mem_nil, or_false] at hrow
  rcases hrow with rfl | rfl | rfl | rfl | rfl | rfl | rfl | rfl | rfl | rfl | rfl | rfl | rfl | rfl | rfl | rfl |
    rfl | rfl | rfl | rfl | rfl | rfl | rfl | rfl | rfl | rfl | rfl | rfl | rfl | rfl | rfl <;>
    first
    | exact oneByte_append hp rest
    | exact parseRxArrive_append hp rest
    | exact parseWriteBegin_append hp rest

/-- The decoder reads one operation from the front of a script and leaves the rest. -/
theorem decode_append {bytes r : List Byte} {i : Instr} (hd : decode bytes = .ok (i, r)) (rest : List Byte) :
    decode (bytes ++ rest) = .ok (i, r ++ rest) := by
  cases bytes with
  | nil => cases hd
  | cons t tl =>
    simp only [decode, List.cons_append] at hd ⊢
    split at hd
    · rename_i row hrow
      exact parse_append (List.mem_of_find?_eq_some hrow) hd rest
    · cases hd

/-- R84: every tag has a row. -/
theorem opTagRows_complete : ∀ t : Byte, (opTagRows.find? (tagMatches t)).isSome = true := by decide

end Sys2Proof
end

