-- ==== Sys2Proof/Laws/State.lean ====
section
/-! SUPPORT. One lemma per field per named update of the state: what the field holds after it. -/

namespace Sys2Proof.Machine

variable (s : State)

@[simp] theorem emit_rxState (e : Event) : (State.emit e s).rxState = s.rxState := rfl
@[simp] theorem emit_pktType (e : Event) : (State.emit e s).pktType = s.pktType := rfl
@[simp] theorem emit_hdrBuf (e : Event) : (State.emit e s).hdrBuf = s.hdrBuf := rfl
@[simp] theorem emit_hdrCursor (e : Event) : (State.emit e s).hdrCursor = s.hdrCursor := rfl
@[simp] theorem emit_countdown (e : Event) : (State.emit e s).countdown = s.countdown := rfl
@[simp] theorem emit_pktBuf (e : Event) : (State.emit e s).pktBuf = s.pktBuf := rfl
@[simp] theorem emit_pktSize (e : Event) : (State.emit e s).pktSize = s.pktSize := rfl
@[simp] theorem emit_wrCursor (e : Event) : (State.emit e s).wrCursor = s.wrCursor := rfl
@[simp] theorem emit_badTypeCount (e : Event) : (State.emit e s).badTypeCount = s.badTypeCount := rfl
@[simp] theorem emit_allocFailCount (e : Event) : (State.emit e s).allocFailCount = s.allocFailCount := rfl
@[simp] theorem emit_initState (e : Event) : (State.emit e s).initState = s.initState := rfl
@[simp] theorem emit_uartCfg (e : Event) : (State.emit e s).uartCfg = s.uartCfg := rfl
@[simp] theorem emit_rxIrqArmed (e : Event) : (State.emit e s).rxIrqArmed = s.rxIrqArmed := rfl
@[simp] theorem emit_hwIrqArmed (e : Event) : (State.emit e s).hwIrqArmed = s.hwIrqArmed := rfl
@[simp] theorem emit_devWake (e : Event) : (State.emit e s).devWake = s.devWake := rfl
@[simp] theorem emit_sleepLocked (e : Event) : (State.emit e s).sleepLocked = s.sleepLocked := rfl
@[simp] theorem emit_isrPhase (e : Event) : (State.emit e s).isrPhase = s.isrPhase := rfl
@[simp] theorem emit_hwPending (e : Event) : (State.emit e s).hwPending = s.hwPending := rfl
@[simp] theorem emit_txPhase (e : Event) : (State.emit e s).txPhase = s.txPhase := rfl
@[simp] theorem emit_txType (e : Event) : (State.emit e s).txType = s.txType := rfl
@[simp] theorem emit_txLen (e : Event) : (State.emit e s).txLen = s.txLen := rfl
@[simp] theorem emit_txIdx (e : Event) : (State.emit e s).txIdx = s.txIdx := rfl
@[simp] theorem emit_txData (e : Event) : (State.emit e s).txData = s.txData := rfl
@[simp] theorem emit_faults (e : Event) : (State.emit e s).faults = s.faults := rfl
@[simp] theorem emit_rxFifo (e : Event) : (State.emit e s).rxFifo = s.rxFifo := rfl
@[simp] theorem emit_trace (e : Event) : (State.emit e s).trace = s.trace ++ [e] := rfl
@[simp] theorem emit_mem (e : Event) : (State.emit e s).mem = s.mem := rfl
@[simp] theorem emit_script (e : Event) : (State.emit e s).script = s.script := rfl
@[simp] theorem emit_allocDraws (e : Event) : (State.emit e s).allocDraws = s.allocDraws := rfl
@[simp] theorem emit_readyDraws (e : Event) : (State.emit e s).readyDraws = s.readyDraws := rfl
@[simp] theorem emit_spuriousDraws (e : Event) : (State.emit e s).spuriousDraws = s.spuriousDraws := rfl
@[simp] theorem emit_drawCount (e : Event) : (State.emit e s).drawCount = s.drawCount := rfl

@[simp] theorem setDevWake_rxState (v : Bool) : (State.setDevWake v s).rxState = s.rxState := rfl
@[simp] theorem setDevWake_pktType (v : Bool) : (State.setDevWake v s).pktType = s.pktType := rfl
@[simp] theorem setDevWake_hdrBuf (v : Bool) : (State.setDevWake v s).hdrBuf = s.hdrBuf := rfl
@[simp] theorem setDevWake_hdrCursor (v : Bool) : (State.setDevWake v s).hdrCursor = s.hdrCursor := rfl
@[simp] theorem setDevWake_countdown (v : Bool) : (State.setDevWake v s).countdown = s.countdown := rfl
@[simp] theorem setDevWake_pktBuf (v : Bool) : (State.setDevWake v s).pktBuf = s.pktBuf := rfl
@[simp] theorem setDevWake_pktSize (v : Bool) : (State.setDevWake v s).pktSize = s.pktSize := rfl
@[simp] theorem setDevWake_wrCursor (v : Bool) : (State.setDevWake v s).wrCursor = s.wrCursor := rfl
@[simp] theorem setDevWake_badTypeCount (v : Bool) : (State.setDevWake v s).badTypeCount = s.badTypeCount := rfl
@[simp] theorem setDevWake_allocFailCount (v : Bool) : (State.setDevWake v s).allocFailCount = s.allocFailCount := rfl
@[simp] theorem setDevWake_initState (v : Bool) : (State.setDevWake v s).initState = s.initState := rfl
@[simp] theorem setDevWake_uartCfg (v : Bool) : (State.setDevWake v s).uartCfg = s.uartCfg := rfl
@[simp] theorem setDevWake_rxIrqArmed (v : Bool) : (State.setDevWake v s).rxIrqArmed = s.rxIrqArmed := rfl
@[simp] theorem setDevWake_hwIrqArmed (v : Bool) : (State.setDevWake v s).hwIrqArmed = s.hwIrqArmed := rfl
@[simp] theorem setDevWake_devWake (v : Bool) : (State.setDevWake v s).devWake = v := rfl
@[simp] theorem setDevWake_sleepLocked (v : Bool) : (State.setDevWake v s).sleepLocked = s.sleepLocked := rfl
@[simp] theorem setDevWake_isrPhase (v : Bool) : (State.setDevWake v s).isrPhase = s.isrPhase := rfl
@[simp] theorem setDevWake_hwPending (v : Bool) : (State.setDevWake v s).hwPending = s.hwPending := rfl
@[simp] theorem setDevWake_txPhase (v : Bool) : (State.setDevWake v s).txPhase = s.txPhase := rfl
@[simp] theorem setDevWake_txType (v : Bool) : (State.setDevWake v s).txType = s.txType := rfl
@[simp] theorem setDevWake_txLen (v : Bool) : (State.setDevWake v s).txLen = s.txLen := rfl
@[simp] theorem setDevWake_txIdx (v : Bool) : (State.setDevWake v s).txIdx = s.txIdx := rfl
@[simp] theorem setDevWake_txData (v : Bool) : (State.setDevWake v s).txData = s.txData := rfl
@[simp] theorem setDevWake_faults (v : Bool) : (State.setDevWake v s).faults = s.faults := rfl
@[simp] theorem setDevWake_rxFifo (v : Bool) : (State.setDevWake v s).rxFifo = s.rxFifo := rfl
@[simp] theorem setDevWake_trace (v : Bool) : (State.setDevWake v s).trace = s.trace ++ [.devWake v] := rfl
@[simp] theorem setDevWake_mem (v : Bool) : (State.setDevWake v s).mem = s.mem := rfl
@[simp] theorem setDevWake_script (v : Bool) : (State.setDevWake v s).script = s.script := rfl
@[simp] theorem setDevWake_allocDraws (v : Bool) : (State.setDevWake v s).allocDraws = s.allocDraws := rfl
@[simp] theorem setDevWake_readyDraws (v : Bool) : (State.setDevWake v s).readyDraws = s.readyDraws := rfl
@[simp] theorem setDevWake_spuriousDraws (v : Bool) : (State.setDevWake v s).spuriousDraws = s.spuriousDraws := rfl
@[simp] theorem setDevWake_drawCount (v : Bool) : (State.setDevWake v s).drawCount = s.drawCount := rfl

@[simp] theorem raiseFault_rxState (c : FaultCode) : (State.raiseFault c s).rxState = s.rxState := rfl
@[simp] theorem raiseFault_pktType (c : FaultCode) : (State.raiseFault c s).pktType = s.pktType := rfl
@[simp] theorem raiseFault_hdrBuf (c : FaultCode) : (State.raiseFault c s).hdrBuf = s.hdrBuf := rfl
@[simp] theorem raiseFault_hdrCursor (c : FaultCode) : (State.raiseFault c s).hdrCursor = s.hdrCursor := rfl
@[simp] theorem raiseFault_countdown (c : FaultCode) : (State.raiseFault c s).countdown = s.countdown := rfl
@[simp] theorem raiseFault_pktBuf (c : FaultCode) : (State.raiseFault c s).pktBuf = s.pktBuf := rfl
@[simp] theorem raiseFault_pktSize (c : FaultCode) : (State.raiseFault c s).pktSize = s.pktSize := rfl
@[simp] theorem raiseFault_wrCursor (c : FaultCode) : (State.raiseFault c s).wrCursor = s.wrCursor := rfl
@[simp] theorem raiseFault_badTypeCount (c : FaultCode) : (State.raiseFault c s).badTypeCount = s.badTypeCount := rfl
@[simp] theorem raiseFault_allocFailCount (c : FaultCode) : (State.raiseFault c s).allocFailCount = s.allocFailCount := rfl
@[simp] theorem raiseFault_initState (c : FaultCode) : (State.raiseFault c s).initState = s.initState := rfl
@[simp] theorem raiseFault_uartCfg (c : FaultCode) : (State.raiseFault c s).uartCfg = s.uartCfg := rfl
@[simp] theorem raiseFault_rxIrqArmed (c : FaultCode) : (State.raiseFault c s).rxIrqArmed = s.rxIrqArmed := rfl
@[simp] theorem raiseFault_hwIrqArmed (c : FaultCode) : (State.raiseFault c s).hwIrqArmed = s.hwIrqArmed := rfl
@[simp] theorem raiseFault_devWake (c : FaultCode) : (State.raiseFault c s).devWake = s.devWake := rfl
@[simp] theorem raiseFault_sleepLocked (c : FaultCode) : (State.raiseFault c s).sleepLocked = s.sleepLocked := rfl
@[simp] theorem raiseFault_isrPhase (c : FaultCode) : (State.raiseFault c s).isrPhase = s.isrPhase := rfl
@[simp] theorem raiseFault_hwPending (c : FaultCode) : (State.raiseFault c s).hwPending = s.hwPending := rfl
@[simp] theorem raiseFault_txPhase (c : FaultCode) : (State.raiseFault c s).txPhase = s.txPhase := rfl
@[simp] theorem raiseFault_txType (c : FaultCode) : (State.raiseFault c s).txType = s.txType := rfl
@[simp] theorem raiseFault_txLen (c : FaultCode) : (State.raiseFault c s).txLen = s.txLen := rfl
@[simp] theorem raiseFault_txIdx (c : FaultCode) : (State.raiseFault c s).txIdx = s.txIdx := rfl
@[simp] theorem raiseFault_txData (c : FaultCode) : (State.raiseFault c s).txData = s.txData := rfl
@[simp] theorem raiseFault_faults (c : FaultCode) : (State.raiseFault c s).faults = s.faults.insert c := rfl
@[simp] theorem raiseFault_rxFifo (c : FaultCode) : (State.raiseFault c s).rxFifo = s.rxFifo := rfl
@[simp] theorem raiseFault_trace (c : FaultCode) : (State.raiseFault c s).trace = s.trace ++ [.fault c] := rfl
@[simp] theorem raiseFault_mem (c : FaultCode) : (State.raiseFault c s).mem = s.mem := rfl
@[simp] theorem raiseFault_script (c : FaultCode) : (State.raiseFault c s).script = s.script := rfl
@[simp] theorem raiseFault_allocDraws (c : FaultCode) : (State.raiseFault c s).allocDraws = s.allocDraws := rfl
@[simp] theorem raiseFault_readyDraws (c : FaultCode) : (State.raiseFault c s).readyDraws = s.readyDraws := rfl
@[simp] theorem raiseFault_spuriousDraws (c : FaultCode) : (State.raiseFault c s).spuriousDraws = s.spuriousDraws := rfl
@[simp] theorem raiseFault_drawCount (c : FaultCode) : (State.raiseFault c s).drawCount = s.drawCount := rfl

@[simp] theorem enterHandler_rxState (p : IsrPhase) : (State.enterHandler p s).rxState = s.rxState := rfl
@[simp] theorem enterHandler_pktType (p : IsrPhase) : (State.enterHandler p s).pktType = s.pktType := rfl
@[simp] theorem enterHandler_hdrBuf (p : IsrPhase) : (State.enterHandler p s).hdrBuf = s.hdrBuf := rfl
@[simp] theorem enterHandler_hdrCursor (p : IsrPhase) : (State.enterHandler p s).hdrCursor = s.hdrCursor := rfl
@[simp] theorem enterHandler_countdown (p : IsrPhase) : (State.enterHandler p s).countdown = s.countdown := rfl
@[simp] theorem enterHandler_pktBuf (p : IsrPhase) : (State.enterHandler p s).pktBuf = s.pktBuf := rfl
@[simp] theorem enterHandler_pktSize (p : IsrPhase) : (State.enterHandler p s).pktSize = s.pktSize := rfl
@[simp] theorem enterHandler_wrCursor (p : IsrPhase) : (State.enterHandler p s).wrCursor = s.wrCursor := rfl
@[simp] theorem enterHandler_badTypeCount (p : IsrPhase) : (State.enterHandler p s).badTypeCount = s.badTypeCount := rfl
@[simp] theorem enterHandler_allocFailCount (p : IsrPhase) : (State.enterHandler p s).allocFailCount = s.allocFailCount := rfl
@[simp] theorem enterHandler_initState (p : IsrPhase) : (State.enterHandler p s).initState = s.initState := rfl
@[simp] theorem enterHandler_uartCfg (p : IsrPhase) : (State.enterHandler p s).uartCfg = s.uartCfg := rfl
@[simp] theorem enterHandler_rxIrqArmed (p : IsrPhase) : (State.enterHandler p s).rxIrqArmed = s.rxIrqArmed := rfl
@[simp] theorem enterHandler_hwIrqArmed (p : IsrPhase) : (State.enterHandler p s).hwIrqArmed = s.hwIrqArmed := rfl
@[simp] theorem enterHandler_devWake (p : IsrPhase) : (State.enterHandler p s).devWake = true := rfl
@[simp] theorem enterHandler_sleepLocked (p : IsrPhase) : (State.enterHandler p s).sleepLocked = s.sleepLocked := rfl
@[simp] theorem enterHandler_isrPhase (p : IsrPhase) : (State.enterHandler p s).isrPhase = p := rfl
@[simp] theorem enterHandler_hwPending (p : IsrPhase) : (State.enterHandler p s).hwPending = s.hwPending := rfl
@[simp] theorem enterHandler_txPhase (p : IsrPhase) : (State.enterHandler p s).txPhase = s.txPhase := rfl
@[simp] theorem enterHandler_txType (p : IsrPhase) : (State.enterHandler p s).txType = s.txType := rfl
@[simp] theorem enterHandler_txLen (p : IsrPhase) : (State.enterHandler p s).txLen = s.txLen := rfl
@[simp] theorem enterHandler_txIdx (p : IsrPhase) : (State.enterHandler p s).txIdx = s.txIdx := rfl
@[simp] theorem enterHandler_txData (p : IsrPhase) : (State.enterHandler p s).txData = s.txData := rfl
@[simp] theorem enterHandler_faults (p : IsrPhase) : (State.enterHandler p s).faults = s.faults := rfl
@[simp] theorem enterHandler_rxFifo (p : IsrPhase) : (State.enterHandler p s).rxFifo = s.rxFifo := rfl
@[simp] theorem enterHandler_trace (p : IsrPhase) : (State.enterHandler p s).trace = s.trace ++ [.devWake true] := rfl
@[simp] theorem enterHandler_mem (p : IsrPhase) : (State.enterHandler p s).mem = s.mem := rfl
@[simp] theorem enterHandler_script (p : IsrPhase) : (State.enterHandler p s).script = s.script := rfl
@[simp] theorem enterHandler_allocDraws (p : IsrPhase) : (State.enterHandler p s).allocDraws = s.allocDraws := rfl
@[simp] theorem enterHandler_readyDraws (p : IsrPhase) : (State.enterHandler p s).readyDraws = s.readyDraws := rfl
@[simp] theorem enterHandler_spuriousDraws (p : IsrPhase) : (State.enterHandler p s).spuriousDraws = s.spuriousDraws := rfl
@[simp] theorem enterHandler_drawCount (p : IsrPhase) : (State.enterHandler p s).drawCount = s.drawCount := rfl

@[simp] theorem leaveHandler_rxState : (State.leaveHandler s).rxState = s.rxState := rfl
@[simp] theorem leaveHandler_pktType : (State.leaveHandler s).pktType = s.pktType := rfl
@[simp] theorem leaveHandler_hdrBuf : (State.leaveHandler s).hdrBuf = s.hdrBuf := rfl
@[simp] theorem leaveHandler_hdrCursor : (State.leaveHandler s).hdrCursor = s.hdrCursor := rfl
@[simp] theorem leaveHandler_countdown : (State.leaveHandler s).countdown = s.countdown := rfl
@[simp] theorem leaveHandler_pktBuf : (State.leaveHandler s).pktBuf = s.pktBuf := rfl
@[simp] theorem leaveHandler_pktSize : (State.leaveHandler s).pktSize = s.pktSize := rfl
@[simp] theorem leaveHandler_wrCursor : (State.leaveHandler s).wrCursor = s.wrCursor := rfl
@[simp] theorem leaveHandler_badTypeCount : (State.leaveHandler s).badTypeCount = s.badTypeCount := rfl
@[simp] theorem leaveHandler_allocFailCount : (State.leaveHandler s).allocFailCount = s.allocFailCount := rfl
@[simp] theorem leaveHandler_initState : (State.leaveHandler s).initState = s.initState := rfl
@[simp] theorem leaveHandler_uartCfg : (State.leaveHandler s).uartCfg = s.uartCfg := rfl
@[simp] theorem leaveHandler_rxIrqArmed : (State.leaveHandler s).rxIrqArmed = s.rxIrqArmed := rfl
@[simp] theorem leaveHandler_hwIrqArmed : (State.leaveHandler s).hwIrqArmed = s.hwIrqArmed := rfl
@[simp] theorem leaveHandler_devWake : (State.leaveHandler s).devWake = false := rfl
@[simp] theorem leaveHandler_sleepLocked : (State.leaveHandler s).sleepLocked = s.sleepLocked := rfl
@[simp] theorem leaveHandler_isrPhase : (State.leaveHandler s).isrPhase = .none := rfl
@[simp] theorem leaveHandler_hwPending : (State.leaveHandler s).hwPending = s.hwPending := rfl
@[simp] theorem leaveHandler_txPhase : (State.leaveHandler s).txPhase = s.txPhase := rfl
@[simp] theorem leaveHandler_txType : (State.leaveHandler s).txType = s.txType := rfl
@[simp] theorem leaveHandler_txLen : (State.leaveHandler s).txLen = s.txLen := rfl
@[simp] theorem leaveHandler_txIdx : (State.leaveHandler s).txIdx = s.txIdx := rfl
@[simp] theorem leaveHandler_txData : (State.leaveHandler s).txData = s.txData := rfl
@[simp] theorem leaveHandler_faults : (State.leaveHandler s).faults = s.faults := rfl
@[simp] theorem leaveHandler_rxFifo : (State.leaveHandler s).rxFifo = s.rxFifo := rfl
@[simp] theorem leaveHandler_trace : (State.leaveHandler s).trace = s.trace ++ [.devWake false] := rfl
@[simp] theorem leaveHandler_mem : (State.leaveHandler s).mem = s.mem := rfl
@[simp] theorem leaveHandler_script : (State.leaveHandler s).script = s.script := rfl
@[simp] theorem leaveHandler_allocDraws : (State.leaveHandler s).allocDraws = s.allocDraws := rfl
@[simp] theorem leaveHandler_readyDraws : (State.leaveHandler s).readyDraws = s.readyDraws := rfl
@[simp] theorem leaveHandler_spuriousDraws : (State.leaveHandler s).spuriousDraws = s.spuriousDraws := rfl
@[simp] theorem leaveHandler_drawCount : (State.leaveHandler s).drawCount = s.drawCount := rfl

@[simp] theorem takeSleepLock_rxState : (State.takeSleepLock s).rxState = s.rxState := rfl
@[simp] theorem takeSleepLock_pktType : (State.takeSleepLock s).pktType = s.pktType := rfl
@[simp] theorem takeSleepLock_hdrBuf : (State.takeSleepLock s).hdrBuf = s.hdrBuf := rfl
@[simp] theorem takeSleepLock_hdrCursor : (State.takeSleepLock s).hdrCursor = s.hdrCursor := rfl
@[simp] theorem takeSleepLock_countdown : (State.takeSleepLock s).countdown = s.countdown := rfl
@[simp] theorem takeSleepLock_pktBuf : (State.takeSleepLock s).pktBuf = s.pktBuf := rfl
@[simp] theorem takeSleepLock_pktSize : (State.takeSleepLock s).pktSize = s.pktSize := rfl
@[simp] theorem takeSleepLock_wrCursor : (State.takeSleepLock s).wrCursor = s.wrCursor := rfl
@[simp] theorem takeSleepLock_badTypeCount : (State.takeSleepLock s).badTypeCount = s.badTypeCount := rfl
@[simp] theorem takeSleepLock_allocFailCount : (State.takeSleepLock s).allocFailCount = s.allocFailCount := rfl
@[simp] theorem takeSleepLock_initState : (State.takeSleepLock s).initState = s.initState := rfl
@[simp] theorem takeSleepLock_uartCfg : (State.takeSleepLock s).uartCfg = s.uartCfg := rfl
@[simp] theorem takeSleepLock_rxIrqArmed : (State.takeSleepLock s).rxIrqArmed = s.rxIrqArmed := rfl
@[simp] theorem takeSleepLock_hwIrqArmed : (State.takeSleepLock s).hwIrqArmed = s.hwIrqArmed := rfl
@[simp] theorem takeSleepLock_devWake : (State.takeSleepLock s).devWake = s.devWake := rfl
@[simp] theorem takeSleepLock_sleepLocked : (State.takeSleepLock s).sleepLocked = true := rfl
@[simp] theorem takeSleepLock_isrPhase : (State.takeSleepLock s).isrPhase = s.isrPhase := rfl
@[simp] theorem takeSleepLock_hwPending : (State.takeSleepLock s).hwPending = s.hwPending := rfl
@[simp] theorem takeSleepLock_txPhase : (State.takeSleepLock s).txPhase = s.txPhase := rfl
@[simp] theorem takeSleepLock_txType : (State.takeSleepLock s).txType = s.txType := rfl
@[simp] theorem takeSleepLock_txLen : (State.takeSleepLock s).txLen = s.txLen := rfl
@[simp] theorem takeSleepLock_txIdx : (State.takeSleepLock s).txIdx = s.txIdx := rfl
@[simp] theorem takeSleepLock_txData : (State.takeSleepLock s).txData = s.txData := rfl
@[simp] theorem takeSleepLock_faults : (State.takeSleepLock s).faults = s.faults := rfl
@[simp] theorem takeSleepLock_rxFifo : (State.takeSleepLock s).rxFifo = s.rxFifo := rfl
@[simp] theorem takeSleepLock_trace : (State.takeSleepLock s).trace = s.trace ++ [.sleepLock] := rfl
@[simp] theorem takeSleepLock_mem : (State.takeSleepLock s).mem = s.mem := rfl
@[simp] theorem takeSleepLock_script : (State.takeSleepLock s).script = s.script := rfl
@[simp] theorem takeSleepLock_allocDraws : (State.takeSleepLock s).allocDraws = s.allocDraws := rfl
@[simp] theorem takeSleepLock_readyDraws : (State.takeSleepLock s).readyDraws = s.readyDraws := rfl
@[simp] theorem takeSleepLock_spuriousDraws : (State.takeSleepLock s).spuriousDraws = s.spuriousDraws := rfl
@[simp] theorem takeSleepLock_drawCount : (State.takeSleepLock s).drawCount = s.drawCount := rfl

@[simp] theorem dropSleepLock_rxState : (State.dropSleepLock s).rxState = s.rxState := rfl
@[simp] theorem dropSleepLock_pktType : (State.dropSleepLock s).pktType = s.pktType := rfl
@[simp] theorem dropSleepLock_hdrBuf : (State.dropSleepLock s).hdrBuf = s.hdrBuf := rfl
@[simp] theorem dropSleepLock_hdrCursor : (State.dropSleepLock s).hdrCursor = s.hdrCursor := rfl
@[simp] theorem dropSleepLock_countdown : (State.dropSleepLock s).countdown = s.countdown := rfl
@[simp] theorem dropSleepLock_pktBuf : (State.dropSleepLock s).pktBuf = s.pktBuf := rfl
@[simp] theorem dropSleepLock_pktSize : (State.dropSleepLock s).pktSize = s.pktSize := rfl
@[simp] theorem dropSleepLock_wrCursor : (State.dropSleepLock s).wrCursor = s.wrCursor := rfl
@[simp] theorem dropSleepLock_badTypeCount : (State.dropSleepLock s).badTypeCount = s.badTypeCount := rfl
@[simp] theorem dropSleepLock_allocFailCount : (State.dropSleepLock s).allocFailCount = s.allocFailCount := rfl
@[simp] theorem dropSleepLock_initState : (State.dropSleepLock s).initState = s.initState := rfl
@[simp] theorem dropSleepLock_uartCfg : (State.dropSleepLock s).uartCfg = s.uartCfg := rfl
@[simp] theorem dropSleepLock_rxIrqArmed : (State.dropSleepLock s).rxIrqArmed = s.rxIrqArmed := rfl
@[simp] theorem dropSleepLock_hwIrqArmed : (State.dropSleepLock s).hwIrqArmed = s.hwIrqArmed := rfl
@[simp] theorem dropSleepLock_devWake : (State.dropSleepLock s).devWake = s.devWake := rfl
@[simp] theorem dropSleepLock_sleepLocked : (State.dropSleepLock s).sleepLocked = false := rfl
@[simp] theorem dropSleepLock_isrPhase : (State.dropSleepLock s).isrPhase = s.isrPhase := rfl
@[simp] theorem dropSleepLock_hwPending : (State.dropSleepLock s).hwPending = s.hwPending := rfl
@[simp] theorem dropSleepLock_txPhase : (State.dropSleepLock s).txPhase = s.txPhase := rfl
@[simp] theorem dropSleepLock_txType : (State.dropSleepLock s).txType = s.txType := rfl
@[simp] theorem dropSleepLock_txLen : (State.dropSleepLock s).txLen = s.txLen := rfl
@[simp] theorem dropSleepLock_txIdx : (State.dropSleepLock s).txIdx = s.txIdx := rfl
@[simp] theorem dropSleepLock_txData : (State.dropSleepLock s).txData = s.txData := rfl
@[simp] theorem dropSleepLock_faults : (State.dropSleepLock s).faults = s.faults := rfl
@[simp] theorem dropSleepLock_rxFifo : (State.dropSleepLock s).rxFifo = s.rxFifo := rfl
@[simp] theorem dropSleepLock_trace : (State.dropSleepLock s).trace = s.trace ++ [.sleepUnlock] := rfl
@[simp] theorem dropSleepLock_mem : (State.dropSleepLock s).mem = s.mem := rfl
@[simp] theorem dropSleepLock_script : (State.dropSleepLock s).script = s.script := rfl
@[simp] theorem dropSleepLock_allocDraws : (State.dropSleepLock s).allocDraws = s.allocDraws := rfl
@[simp] theorem dropSleepLock_readyDraws : (State.dropSleepLock s).readyDraws = s.readyDraws := rfl
@[simp] theorem dropSleepLock_spuriousDraws : (State.dropSleepLock s).spuriousDraws = s.spuriousDraws := rfl
@[simp] theorem dropSleepLock_drawCount : (State.dropSleepLock s).drawCount = s.drawCount := rfl

@[simp] theorem initialised_rxState : (State.initialised s).rxState = s.rxState := rfl
@[simp] theorem initialised_pktType : (State.initialised s).pktType = s.pktType := rfl
@[simp] theorem initialised_hdrBuf : (State.initialised s).hdrBuf = s.hdrBuf := rfl
@[simp] theorem initialised_hdrCursor : (State.initialised s).hdrCursor = s.hdrCursor := rfl
@[simp] theorem initialised_countdown : (State.initialised s).countdown = s.countdown := rfl
@[simp] theorem initialised_pktBuf : (State.initialised s).pktBuf = s.pktBuf := rfl
@[simp] theorem initialised_pktSize : (State.initialised s).pktSize = s.pktSize := rfl
@[simp] theorem initialised_wrCursor : (State.initialised s).wrCursor = s.wrCursor := rfl
@[simp] theorem initialised_badTypeCount : (State.initialised s).badTypeCount = s.badTypeCount := rfl
@[simp] theorem initialised_allocFailCount : (State.initialised s).allocFailCount = s.allocFailCount := rfl
@[simp] theorem initialised_initState : (State.initialised s).initState = .settling := rfl
@[simp] theorem initialised_uartCfg : (State.initialised s).uartCfg = some initUartCfg := rfl
@[simp] theorem initialised_rxIrqArmed : (State.initialised s).rxIrqArmed = true := rfl
@[simp] theorem initialised_hwIrqArmed : (State.initialised s).hwIrqArmed = if Config.deepSleep then true else s.hwIrqArmed := rfl
@[simp] theorem initialised_devWake : (State.initialised s).devWake = s.devWake := rfl
@[simp] theorem initialised_sleepLocked : (State.initialised s).sleepLocked = s.sleepLocked := rfl
@[simp] theorem initialised_isrPhase : (State.initialised s).isrPhase = s.isrPhase := rfl
@[simp] theorem initialised_hwPending : (State.initialised s).hwPending = s.hwPending := rfl
@[simp] theorem initialised_txPhase : (State.initialised s).txPhase = s.txPhase := rfl
@[simp] theorem initialised_txType : (State.initialised s).txType = s.txType := rfl
@[simp] theorem initialised_txLen : (State.initialised s).txLen = s.txLen := rfl
@[simp] theorem initialised_txIdx : (State.initialised s).txIdx = s.txIdx := rfl
@[simp] theorem initialised_txData : (State.initialised s).txData = s.txData := rfl
@[simp] theorem initialised_faults : (State.initialised s).faults = s.faults := rfl
@[simp] theorem initialised_rxFifo : (State.initialised s).rxFifo = s.rxFifo := rfl
@[simp] theorem initialised_trace : (State.initialised s).trace = s.trace ++ [.uartConfig initUartCfg] := rfl
@[simp] theorem initialised_mem : (State.initialised s).mem = s.mem := rfl
@[simp] theorem initialised_script : (State.initialised s).script = s.script := rfl
@[simp] theorem initialised_allocDraws : (State.initialised s).allocDraws = s.allocDraws := rfl
@[simp] theorem initialised_readyDraws : (State.initialised s).readyDraws = s.readyDraws := rfl
@[simp] theorem initialised_spuriousDraws : (State.initialised s).spuriousDraws = s.spuriousDraws := rfl
@[simp] theorem initialised_drawCount : (State.initialised s).drawCount = s.drawCount := rfl

@[simp] theorem writeBegun_rxState (t : Byte) (n : Half) (d : List Byte) : (State.writeBegun t n d s).rxState = s.rxState := rfl
@[simp] theorem writeBegun_pktType (t : Byte) (n : Half) (d : List Byte) : (State.writeBegun t n d s).pktType = s.pktType := rfl
@[simp] theorem writeBegun_hdrBuf (t : Byte) (n : Half) (d : List Byte) : (State.writeBegun t n d s).hdrBuf = s.hdrBuf := rfl
@[simp] theorem writeBegun_hdrCursor (t : Byte) (n : Half) (d : List Byte) : (State.writeBegun t n d s).hdrCursor = s.hdrCursor := rfl
@[simp] theorem writeBegun_countdown (t : Byte) (n : Half) (d : List Byte) : (State.writeBegun t n d s).countdown = s.countdown := rfl
@[simp] theorem writeBegun_pktBuf (t : Byte) (n : Half) (d : List Byte) : (State.writeBegun t n d s).pktBuf = s.pktBuf := rfl
@[simp] theorem writeBegun_pktSize (t : Byte) (n : Half) (d : List Byte) : (State.writeBegun t n d s).pktSize = s.pktSize := rfl
@[simp] theorem writeBegun_wrCursor (t : Byte) (n : Half) (d : List Byte) : (State.writeBegun t n d s).wrCursor = s.wrCursor := rfl
@[simp] theorem writeBegun_badTypeCount (t : Byte) (n : Half) (d : List Byte) : (State.writeBegun t n d s).badTypeCount = s.badTypeCount := rfl
@[simp] theorem writeBegun_allocFailCount (t : Byte) (n : Half) (d : List Byte) : (State.writeBegun t n d s).allocFailCount = s.allocFailCount := rfl
@[simp] theorem writeBegun_initState (t : Byte) (n : Half) (d : List Byte) : (State.writeBegun t n d s).initState = s.initState := rfl
@[simp] theorem writeBegun_uartCfg (t : Byte) (n : Half) (d : List Byte) : (State.writeBegun t n d s).uartCfg = s.uartCfg := rfl
@[simp] theorem writeBegun_rxIrqArmed (t : Byte) (n : Half) (d : List Byte) : (State.writeBegun t n d s).rxIrqArmed = s.rxIrqArmed := rfl
@[simp] theorem writeBegun_hwIrqArmed (t : Byte) (n : Half) (d : List Byte) : (State.writeBegun t n d s).hwIrqArmed = s.hwIrqArmed := rfl
@[simp] theorem writeBegun_devWake (t : Byte) (n : Half) (d : List Byte) : (State.writeBegun t n d s).devWake = true := rfl
@[simp] theorem writeBegun_sleepLocked (t : Byte) (n : Half) (d : List Byte) : (State.writeBegun t n d s).sleepLocked = s.sleepLocked := rfl
@[simp] theorem writeBegun_isrPhase (t : Byte) (n : Half) (d : List Byte) : (State.writeBegun t n d s).isrPhase = s.isrPhase := rfl
@[simp] theorem writeBegun_hwPending (t : Byte) (n : Half) (d : List Byte) : (State.writeBegun t n d s).hwPending = s.hwPending := rfl
@[simp] theorem writeBegun_txPhase (t : Byte) (n : Half) (d : List Byte) : (State.writeBegun t n d s).txPhase = .type := rfl
@[simp] theorem writeBegun_txType (t : Byte) (n : Half) (d : List Byte) : (State.writeBegun t n d s).txType = t := rfl
@[simp] theorem writeBegun_txLen (t : Byte) (n : Half) (d : List Byte) : (State.writeBegun t n d s).txLen = n := rfl
@[simp] theorem writeBegun_txIdx (t : Byte) (n : Half) (d : List Byte) : (State.writeBegun t n d s).txIdx = 0 := rfl
@[simp] theorem writeBegun_txData (t : Byte) (n : Half) (d : List Byte) : (State.writeBegun t n d s).txData = d := rfl
@[simp] theorem writeBegun_faults (t : Byte) (n : Half) (d : List Byte) : (State.writeBegun t n d s).faults = s.faults := rfl
@[simp] theorem writeBegun_rxFifo (t : Byte) (n : Half) (d : List Byte) : (State.writeBegun t n d s).rxFifo = s.rxFifo := rfl
@[simp] theorem writeBegun_trace (t : Byte) (n : Half) (d : List Byte) : (State.writeBegun t n d s).trace = s.trace ++ [.devWake true] := rfl
@[simp] theorem writeBegun_mem (t : Byte) (n : Half) (d : List Byte) : (State.writeBegun t n d s).mem = s.mem := rfl
@[simp] theorem writeBegun_script (t : Byte) (n : Half) (d : List Byte) : (State.writeBegun t n d s).script = s.script := rfl
@[simp] theorem writeBegun_allocDraws (t : Byte) (n : Half) (d : List Byte) : (State.writeBegun t n d s).allocDraws = s.allocDraws := rfl
@[simp] theorem writeBegun_readyDraws (t : Byte) (n : Half) (d : List Byte) : (State.writeBegun t n d s).readyDraws = s.readyDraws := rfl
@[simp] theorem writeBegun_spuriousDraws (t : Byte) (n : Half) (d : List Byte) : (State.writeBegun t n d s).spuriousDraws = s.spuriousDraws := rfl
@[simp] theorem writeBegun_drawCount (t : Byte) (n : Half) (d : List Byte) : (State.writeBegun t n d s).drawCount = s.drawCount := rfl

@[simp] theorem finishPacket_rxState (h : Nat) (es : List Event) : (State.finishPacket h es s).rxState = .idle := rfl
@[simp] theorem finishPacket_pktType (h : Nat) (es : List Event) : (State.finishPacket h es s).pktType = s.pktType := rfl
@[simp] theorem finishPacket_hdrBuf (h : Nat) (es : List Event) : (State.finishPacket h es s).hdrBuf = s.hdrBuf := rfl
@[simp] theorem finishPacket_hdrCursor (h : Nat) (es : List Event) : (State.finishPacket h es s).hdrCursor = s.hdrCursor := rfl
@[simp] theorem finishPacket_countdown (h : Nat) (es : List Event) : (State.finishPacket h es s).countdown = s.countdown := rfl
@[simp] theorem finishPacket_pktBuf (h : Nat) (es : List Event) : (State.finishPacket h es s).pktBuf = none := rfl
@[simp] theorem finishPacket_pktSize (h : Nat) (es : List Event) : (State.finishPacket h es s).pktSize = s.pktSize := rfl
@[simp] theorem finishPacket_wrCursor (h : Nat) (es : List Event) : (State.finishPacket h es s).wrCursor = s.wrCursor := rfl
@[simp] theorem finishPacket_badTypeCount (h : Nat) (es : List Event) : (State.finishPacket h es s).badTypeCount = s.badTypeCount := rfl
@[simp] theorem finishPacket_allocFailCount (h : Nat) (es : List Event) : (State.finishPacket h es s).allocFailCount = s.allocFailCount := rfl
@[simp] theorem finishPacket_initState (h : Nat) (es : List Event) : (State.finishPacket h es s).initState = s.initState := rfl
@[simp] theorem finishPacket_uartCfg (h : Nat) (es : List Event) : (State.finishPacket h es s).uartCfg = s.uartCfg := rfl
@[simp] theorem finishPacket_rxIrqArmed (h : Nat) (es : List Event) : (State.finishPacket h es s).rxIrqArmed = s.rxIrqArmed := rfl
@[simp] theorem finishPacket_hwIrqArmed (h : Nat) (es : List Event) : (State.finishPacket h es s).hwIrqArmed = s.hwIrqArmed := rfl
@[simp] theorem finishPacket_devWake (h : Nat) (es : List Event) : (State.finishPacket h es s).devWake = s.devWake := rfl
@[simp] theorem finishPacket_sleepLocked (h : Nat) (es : List Event) : (State.finishPacket h es s).sleepLocked = s.sleepLocked := rfl
@[simp] theorem finishPacket_isrPhase (h : Nat) (es : List Event) : (State.finishPacket h es s).isrPhase = s.isrPhase := rfl
@[simp] theorem finishPacket_hwPending (h : Nat) (es : List Event) : (State.finishPacket h es s).hwPending = s.hwPending := rfl
@[simp] theorem finishPacket_txPhase (h : Nat) (es : List Event) : (State.finishPacket h es s).txPhase = s.txPhase := rfl
@[simp] theorem finishPacket_txType (h : Nat) (es : List Event) : (State.finishPacket h es s).txType = s.txType := rfl
@[simp] theorem finishPacket_txLen (h : Nat) (es : List Event) : (State.finishPacket h es s).txLen = s.txLen := rfl
@[simp] theorem finishPacket_txIdx (h : Nat) (es : List Event) : (State.finishPacket h es s).txIdx = s.txIdx := rfl
@[simp] theorem finishPacket_txData (h : Nat) (es : List Event) : (State.finishPacket h es s).txData = s.txData := rfl
@[simp] theorem finishPacket_faults (h : Nat) (es : List Event) : (State.finishPacket h es s).faults = s.faults := rfl
@[simp] theorem finishPacket_rxFifo (h : Nat) (es : List Event) : (State.finishPacket h es s).rxFifo = s.rxFifo := rfl
@[simp] theorem finishPacket_trace (h : Nat) (es : List Event) : (State.finishPacket h es s).trace = s.trace ++ es := rfl
@[simp] theorem finishPacket_mem (h : Nat) (es : List Event) : (State.finishPacket h es s).mem = Memory.release s.mem h := rfl
@[simp] theorem finishPacket_script (h : Nat) (es : List Event) : (State.finishPacket h es s).script = s.script := rfl
@[simp] theorem finishPacket_allocDraws (h : Nat) (es : List Event) : (State.finishPacket h es s).allocDraws = s.allocDraws := rfl
@[simp] theorem finishPacket_readyDraws (h : Nat) (es : List Event) : (State.finishPacket h es s).readyDraws = s.readyDraws := rfl
@[simp] theorem finishPacket_spuriousDraws (h : Nat) (es : List Event) : (State.finishPacket h es s).spuriousDraws = s.spuriousDraws := rfl
@[simp] theorem finishPacket_drawCount (h : Nat) (es : List Event) : (State.finishPacket h es s).drawCount = s.drawCount := rfl

@[simp] theorem allocDrawn_rxState : (State.allocDrawn s).rxState = s.rxState := by unfold State.allocDrawn; split <;> rfl
@[simp] theorem allocDrawn_pktType : (State.allocDrawn s).pktType = s.pktType := by unfold State.allocDrawn; split <;> rfl
@[simp] theorem allocDrawn_hdrBuf : (State.allocDrawn s).hdrBuf = s.hdrBuf := by unfold State.allocDrawn; split <;> rfl
@[simp] theorem allocDrawn_hdrCursor : (State.allocDrawn s).hdrCursor = s.hdrCursor := by unfold State.allocDrawn; split <;> rfl
@[simp] theorem allocDrawn_countdown : (State.allocDrawn s).countdown = s.countdown := by unfold State.allocDrawn; split <;> rfl
@[simp] theorem allocDrawn_pktBuf : (State.allocDrawn s).pktBuf = s.pktBuf := by unfold State.allocDrawn; split <;> rfl
@[simp] theorem allocDrawn_pktSize : (State.allocDrawn s).pktSize = s.pktSize := by unfold State.allocDrawn; split <;> rfl
@[simp] theorem allocDrawn_wrCursor : (State.allocDrawn s).wrCursor = s.wrCursor := by unfold State.allocDrawn; split <;> rfl
@[simp] theorem allocDrawn_badTypeCount : (State.allocDrawn s).badTypeCount = s.badTypeCount := by unfold State.allocDrawn; split <;> rfl
@[simp] theorem allocDrawn_allocFailCount : (State.allocDrawn s).allocFailCount = s.allocFailCount := by unfold State.allocDrawn; split <;> rfl
@[simp] theorem allocDrawn_initState : (State.allocDrawn s).initState = s.initState := by unfold State.allocDrawn; split <;> rfl
@[simp] theorem allocDrawn_uartCfg : (State.allocDrawn s).uartCfg = s.uartCfg := by unfold State.allocDrawn; split <;> rfl
@[simp] theorem allocDrawn_rxIrqArmed : (State.allocDrawn s).rxIrqArmed = s.rxIrqArmed := by unfold State.allocDrawn; split <;> rfl
@[simp] theorem allocDrawn_hwIrqArmed : (State.allocDrawn s).hwIrqArmed = s.hwIrqArmed := by unfold State.allocDrawn; split <;> rfl
@[simp] theorem allocDrawn_devWake : (State.allocDrawn s).devWake = s.devWake := by unfold State.allocDrawn; split <;> rfl
@[simp] theorem allocDrawn_sleepLocked : (State.allocDrawn s).sleepLocked = s.sleepLocked := by unfold State.allocDrawn; split <;> rfl
@[simp] theorem allocDrawn_isrPhase : (State.allocDrawn s).isrPhase = s.isrPhase := by unfold State.allocDrawn; split <;> rfl
@[simp] theorem allocDrawn_hwPending : (State.allocDrawn s).hwPending = s.hwPending := by unfold State.allocDrawn; split <;> rfl
@[simp] theorem allocDrawn_txPhase : (State.allocDrawn s).txPhase = s.txPhase := by unfold State.allocDrawn; split <;> rfl
@[simp] theorem allocDrawn_txType : (State.allocDrawn s).txType = s.txType := by unfold State.allocDrawn; split <;> rfl
@[simp] theorem allocDrawn_txLen : (State.allocDrawn s).txLen = s.txLen := by unfold State.allocDrawn; split <;> rfl
@[simp] theorem allocDrawn_txIdx : (State.allocDrawn s).txIdx = s.txIdx := by unfold State.allocDrawn; split <;> rfl
@[simp] theorem allocDrawn_txData : (State.allocDrawn s).txData = s.txData := by unfold State.allocDrawn; split <;> rfl
@[simp] theorem allocDrawn_faults : (State.allocDrawn s).faults = s.faults := by unfold State.allocDrawn; split <;> rfl
@[simp] theorem allocDrawn_rxFifo : (State.allocDrawn s).rxFifo = s.rxFifo := by unfold State.allocDrawn; split <;> rfl
@[simp] theorem allocDrawn_trace : (State.allocDrawn s).trace = s.trace := by unfold State.allocDrawn; split <;> rfl
@[simp] theorem allocDrawn_mem : (State.allocDrawn s).mem = s.mem := by unfold State.allocDrawn; split <;> rfl
@[simp] theorem allocDrawn_script : (State.allocDrawn s).script = s.script := by unfold State.allocDrawn; split <;> rfl
@[simp] theorem allocDrawn_readyDraws : (State.allocDrawn s).readyDraws = s.readyDraws := by unfold State.allocDrawn; split <;> rfl
@[simp] theorem allocDrawn_spuriousDraws : (State.allocDrawn s).spuriousDraws = s.spuriousDraws := by unfold State.allocDrawn; split <;> rfl

@[simp] theorem readyDrawn_rxState : (State.readyDrawn s).rxState = s.rxState := by unfold State.readyDrawn; split <;> rfl
@[simp] theorem readyDrawn_pktType : (State.readyDrawn s).pktType = s.pktType := by unfold State.readyDrawn; split <;> rfl
@[simp] theorem readyDrawn_hdrBuf : (State.readyDrawn s).hdrBuf = s.hdrBuf := by unfold State.readyDrawn; split <;> rfl
@[simp] theorem readyDrawn_hdrCursor : (State.readyDrawn s).hdrCursor = s.hdrCursor := by unfold State.readyDrawn; split <;> rfl
@[simp] theorem readyDrawn_countdown : (State.readyDrawn s).countdown = s.countdown := by unfold State.readyDrawn; split <;> rfl
@[simp] theorem readyDrawn_pktBuf : (State.readyDrawn s).pktBuf = s.pktBuf := by unfold State.readyDrawn; split <;> rfl
@[simp] theorem readyDrawn_pktSize : (State.readyDrawn s).pktSize = s.pktSize := by unfold State.readyDrawn; split <;> rfl
@[simp] theorem readyDrawn_wrCursor : (State.readyDrawn s).wrCursor = s.wrCursor := by unfold State.readyDrawn; split <;> rfl
@[simp] theorem readyDrawn_badTypeCount : (State.readyDrawn s).badTypeCount = s.badTypeCount := by unfold State.readyDrawn; split <;> rfl
@[simp] theorem readyDrawn_allocFailCount : (State.readyDrawn s).allocFailCount = s.allocFailCount := by unfold State.readyDrawn; split <;> rfl
@[simp] theorem readyDrawn_initState : (State.readyDrawn s).initState = s.initState := by unfold State.readyDrawn; split <;> rfl
@[simp] theorem readyDrawn_uartCfg : (State.readyDrawn s).uartCfg = s.uartCfg := by unfold State.readyDrawn; split <;> rfl
@[simp] theorem readyDrawn_rxIrqArmed : (State.readyDrawn s).rxIrqArmed = s.rxIrqArmed := by unfold State.readyDrawn; split <;> rfl
@[simp] theorem readyDrawn_hwIrqArmed : (State.readyDrawn s).hwIrqArmed = s.hwIrqArmed := by unfold State.readyDrawn; split <;> rfl
@[simp] theorem readyDrawn_devWake : (State.readyDrawn s).devWake = s.devWake := by unfold State.readyDrawn; split <;> rfl
@[simp] theorem readyDrawn_sleepLocked : (State.readyDrawn s).sleepLocked = s.sleepLocked := by unfold State.readyDrawn; split <;> rfl
@[simp] theorem readyDrawn_isrPhase : (State.readyDrawn s).isrPhase = s.isrPhase := by unfold State.readyDrawn; split <;> rfl
@[simp] theorem readyDrawn_hwPending : (State.readyDrawn s).hwPending = s.hwPending := by unfold State.readyDrawn; split <;> rfl
@[simp] theorem readyDrawn_txPhase : (State.readyDrawn s).txPhase = s.txPhase := by unfold State.readyDrawn; split <;> rfl
@[simp] theorem readyDrawn_txType : (State.readyDrawn s).txType = s.txType := by unfold State.readyDrawn; split <;> rfl
@[simp] theorem readyDrawn_txLen : (State.readyDrawn s).txLen = s.txLen := by unfold State.readyDrawn; split <;> rfl
@[simp] theorem readyDrawn_txIdx : (State.readyDrawn s).txIdx = s.txIdx := by unfold State.readyDrawn; split <;> rfl
@[simp] theorem readyDrawn_txData : (State.readyDrawn s).txData = s.txData := by unfold State.readyDrawn; split <;> rfl
@[simp] theorem readyDrawn_faults : (State.readyDrawn s).faults = s.faults := by unfold State.readyDrawn; split <;> rfl
@[simp] theorem readyDrawn_rxFifo : (State.readyDrawn s).rxFifo = s.rxFifo := by unfold State.readyDrawn; split <;> rfl
@[simp] theorem readyDrawn_trace : (State.readyDrawn s).trace = s.trace := by unfold State.readyDrawn; split <;> rfl
@[simp] theorem readyDrawn_mem : (State.readyDrawn s).mem = s.mem := by unfold State.readyDrawn; split <;> rfl
@[simp] theorem readyDrawn_script : (State.readyDrawn s).script = s.script := by unfold State.readyDrawn; split <;> rfl
@[simp] theorem readyDrawn_allocDraws : (State.readyDrawn s).allocDraws = s.allocDraws := by unfold State.readyDrawn; split <;> rfl
@[simp] theorem readyDrawn_spuriousDraws : (State.readyDrawn s).spuriousDraws = s.spuriousDraws := by unfold State.readyDrawn; split <;> rfl

@[simp] theorem spuriousDrawn_rxState : (State.spuriousDrawn s).rxState = s.rxState := by unfold State.spuriousDrawn; split <;> rfl
@[simp] theorem spuriousDrawn_pktType : (State.spuriousDrawn s).pktType = s.pktType := by unfold State.spuriousDrawn; split <;> rfl
@[simp] theorem spuriousDrawn_hdrBuf : (State.spuriousDrawn s).hdrBuf = s.hdrBuf := by unfold State.spuriousDrawn; split <;> rfl
@[simp] theorem spuriousDrawn_hdrCursor : (State.spuriousDrawn s).hdrCursor = s.hdrCursor := by unfold State.spuriousDrawn; split <;> rfl
@[simp] theorem spuriousDrawn_countdown : (State.spuriousDrawn s).countdown = s.countdown := by unfold State.spuriousDrawn; split <;> rfl
@[simp] theorem spuriousDrawn_pktBuf : (State.spuriousDrawn s).pktBuf = s.pktBuf := by unfold State.spuriousDrawn; split <;> rfl
@[simp] theorem spuriousDrawn_pktSize : (State.spuriousDrawn s).pktSize = s.pktSize := by unfold State.spuriousDrawn; split <;> rfl
@[simp] theorem spuriousDrawn_wrCursor : (State.spuriousDrawn s).wrCursor = s.wrCursor := by unfold State.spuriousDrawn; split <;> rfl
@[simp] theorem spuriousDrawn_badTypeCount : (State.spuriousDrawn s).badTypeCount = s.badTypeCount := by unfold State.spuriousDrawn; split <;> rfl
@[simp] theorem spuriousDrawn_allocFailCount : (State.spuriousDrawn s).allocFailCount = s.allocFailCount := by unfold State.spuriousDrawn; split <;> rfl
@[simp] theorem spuriousDrawn_initState : (State.spuriousDrawn s).initState = s.initState := by unfold State.spuriousDrawn; split <;> rfl
@[simp] theorem spuriousDrawn_uartCfg : (State.spuriousDrawn s).uartCfg = s.uartCfg := by unfold State.spuriousDrawn; split <;> rfl
@[simp] theorem spuriousDrawn_rxIrqArmed : (State.spuriousDrawn s).rxIrqArmed = s.rxIrqArmed := by unfold State.spuriousDrawn; split <;> rfl
@[simp] theorem spuriousDrawn_hwIrqArmed : (State.spuriousDrawn s).hwIrqArmed = s.hwIrqArmed := by unfold State.spuriousDrawn; split <;> rfl
@[simp] theorem spuriousDrawn_devWake : (State.spuriousDrawn s).devWake = s.devWake := by unfold State.spuriousDrawn; split <;> rfl
@[simp] theorem spuriousDrawn_sleepLocked : (State.spuriousDrawn s).sleepLocked = s.sleepLocked := by unfold State.spuriousDrawn; split <;> rfl
@[simp] theorem spuriousDrawn_isrPhase : (State.spuriousDrawn s).isrPhase = s.isrPhase := by unfold State.spuriousDrawn; split <;> rfl
@[simp] theorem spuriousDrawn_hwPending : (State.spuriousDrawn s).hwPending = s.hwPending := by unfold State.spuriousDrawn; split <;> rfl
@[simp] theorem spuriousDrawn_txPhase : (State.spuriousDrawn s).txPhase = s.txPhase := by unfold State.spuriousDrawn; split <;> rfl
@[simp] theorem spuriousDrawn_txType : (State.spuriousDrawn s).txType = s.txType := by unfold State.spuriousDrawn; split <;> rfl
@[simp] theorem spuriousDrawn_txLen : (State.spuriousDrawn s).txLen = s.txLen := by unfold State.spuriousDrawn; split <;> rfl
@[simp] theorem spuriousDrawn_txIdx : (State.spuriousDrawn s).txIdx = s.txIdx := by unfold State.spuriousDrawn; split <;> rfl
@[simp] theorem spuriousDrawn_txData : (State.spuriousDrawn s).txData = s.txData := by unfold State.spuriousDrawn; split <;> rfl
@[simp] theorem spuriousDrawn_faults : (State.spuriousDrawn s).faults = s.faults := by unfold State.spuriousDrawn; split <;> rfl
@[simp] theorem spuriousDrawn_rxFifo : (State.spuriousDrawn s).rxFifo = s.rxFifo := by unfold State.spuriousDrawn; split <;> rfl
@[simp] theorem spuriousDrawn_trace : (State.spuriousDrawn s).trace = s.trace := by unfold State.spuriousDrawn; split <;> rfl
@[simp] theorem spuriousDrawn_mem : (State.spuriousDrawn s).mem = s.mem := by unfold State.spuriousDrawn; split <;> rfl
@[simp] theorem spuriousDrawn_script : (State.spuriousDrawn s).script = s.script := by unfold State.spuriousDrawn; split <;> rfl
@[simp] theorem spuriousDrawn_allocDraws : (State.spuriousDrawn s).allocDraws = s.allocDraws := by unfold State.spuriousDrawn; split <;> rfl
@[simp] theorem spuriousDrawn_readyDraws : (State.spuriousDrawn s).readyDraws = s.readyDraws := by unfold State.spuriousDrawn; split <;> rfl

end Sys2Proof.Machine
end

