-- ==== Sys2Proof/Laws/Events.lean ====
section
/-! SUPPORT. The events of a step: what a step adds to the trace, and the device-wake levels among them. -/

namespace Sys2Proof.Machine

variable {s t : State}

/-- A step that appends to the trace has added exactly what it appended. -/
theorem newEvents_of_append {es : List Event} (ht : t.trace = s.trace ++ es) : newEvents s t = es := by
  simp [newEvents, ht]

/-- A step that leaves the trace has added nothing. -/
theorem newEvents_of_trace_eq (ht : t.trace = s.trace) : newEvents s t = [] :=
  newEvents_of_append (by rw [ht, List.append_nil])

@[simp] theorem wakeLevel?_devWake (level : Bool) : Event.wakeLevel? (.devWake level) = some level := rfl

theorem wakeLevel?_eq_some {e : Event} {level : Bool} : e.wakeLevel? = some level ↔ e = .devWake level := by
  cases e <;> simp [Event.wakeLevel?]

/-- R130: the Complete resolution emits no device-wake event. -/
@[simp] theorem completionEvents_wakeLevel? (ty : Byte) (bytes : List Byte) :
    (completionEvents ty bytes).filterMap Event.wakeLevel? = [] := by
  unfold completionEvents
  split <;> rfl

end Sys2Proof.Machine
end

