-- ==== Sys2Proof/Laws/Memory.lean ====
section
/-! SUPPORT. The laws of the Packet Buffers: read after write, every other byte unchanged, what taking and giving up a
buffer does, and that every operation keeps the canonical form. -/

namespace Sys2Proof.Machine

/-! ## Cells of one buffer -/

@[simp] theorem readCell_writeCell_same (cs : List Host.Cell) (off : Nat) (b : Byte) :
    readCell (writeCell cs off b) off = some b := by
  induction cs with
  | nil => simp [writeCell, readCell]
  | cons c cs ih =>
    obtain ⟨a, v⟩ := c
    simp only [writeCell]
    split
    · simp [readCell]
    · split
      · simp [readCell]
      · rename_i _ hne
        simp [readCell, Ne.symm hne, ih]

theorem readCell_writeCell_ne (cs : List Host.Cell) {off off' : Nat} (b : Byte) (hne : off' ≠ off) :
    readCell (writeCell cs off b) off' = readCell cs off' := by
  induction cs with
  | nil => simp [writeCell, readCell, Ne.symm hne]
  | cons c cs ih =>
    obtain ⟨a, v⟩ := c
    simp only [writeCell]
    split
    · simp [readCell, Ne.symm hne]
    · split
      · rename_i _ heq
        simp [readCell, Ne.symm hne, ← heq]
      · simp [readCell, ih]

theorem cellsWf_writeCell {size least off : Nat} (b : Byte) {cs : List Host.Cell} (hwf : cellsWf size least cs = true)
    (hlo : least ≤ off) (hhi : off < size) : cellsWf size least (writeCell cs off b) = true := by
  induction cs generalizing least with
  | nil => simp [writeCell, cellsWf, hlo, hhi]
  | cons c cs ih =>
    obtain ⟨a, v⟩ := c
    simp only [cellsWf, Bool.and_eq_true, decide_eq_true_eq] at hwf
    simp only [writeCell]
    split
    · simp only [cellsWf, Bool.and_eq_true, decide_eq_true_eq]; exact ⟨⟨hlo, hhi⟩, ⟨by omega, hwf.1.2⟩, hwf.2⟩
    · split
      · rename_i _ heq
        subst heq
        simp [cellsWf, hlo, hhi, hwf.2]
      · have := ih hwf.2 (by omega)
        simp [cellsWf, hwf.1.1, hwf.1.2, this]

/-! ## One byte of a Packet Buffer -/

/-- What `MemWrite` does: it answers exactly where R11 allows it, the byte then reads back, every other byte reads as
before, and no buffer changes its size. -/
theorem write_spec {m m' : Memory} {h : Nat} {off : Nat} {b : Byte} (hw : Memory.write m h off b = some m') :
    (∃ n, Memory.size? m h = some n ∧ off < n.toNat) ∧ Memory.read m' h off = some b ∧
      (∀ h' off', (h', off') ≠ (h, off) → Memory.read m' h' off' = Memory.read m h' off') ∧
      (∀ h', Memory.size? m' h' = Memory.size? m h') := by
  induction m generalizing m' with
  | nil => simp [Memory.write] at hw
  | cons p ps ih =>
    simp only [Memory.write] at hw
    by_cases hp : p.handle = h
    · rw [if_pos hp] at hw
      by_cases ho : off < p.size.toNat
      · rw [if_pos ho] at hw
        obtain rfl := Option.some.inj hw
        refine ⟨⟨p.size, by simp [Memory.size?, hp], ho⟩, by simp [Memory.read, hp], ?_, ?_⟩
        · intro h' off' hne
          by_cases hh : p.handle = h'
          · have : off' ≠ off := by
              rintro rfl; exact hne (by rw [← hh, hp])
            simp [Memory.read, hh, readCell_writeCell_ne _ _ this]
          · simp [Memory.read, hh]
        · intro h'; simp [Memory.size?]
      · simp [ho] at hw
    · rw [if_neg hp] at hw
      cases hq : Memory.write ps h off b with
      | none => simp [hq] at hw
      | some q =>
        simp only [hq, Option.map_some, Option.some.injEq] at hw
        subst hw
        obtain ⟨⟨n, hn, ho⟩, hr, hf, hs⟩ := ih hq
        refine ⟨⟨n, by simpa [Memory.size?, hp] using hn, ho⟩, by simpa [Memory.read, hp] using hr, ?_, ?_⟩
        · intro h' off' hne
          by_cases hh : p.handle = h' <;> simp [Memory.read, hh, hf h' off' hne]
        · intro h'; by_cases hh : p.handle = h' <;> simp [Memory.size?, hh, hs h']

/-- R11: a write inside a buffer the block owns is answered. -/
theorem write_isSome {m : Memory} {h : Nat} {off : Nat} (b : Byte) {n : BitVec 17} (hs : Memory.size? m h = some n)
    (ho : off < n.toNat) : ∃ m', Memory.write m h off b = some m' := by
  induction m with
  | nil => simp [Memory.size?] at hs
  | cons p ps ih =>
    by_cases hp : p.handle = h
    · simp only [Memory.size?, hp, if_true, Option.some.injEq] at hs
      subst hs
      exact ⟨{ p with cells := writeCell p.cells off b } :: ps, by simp [Memory.write, hp, ho]⟩
    · simp only [Memory.size?, hp, if_false] at hs
      obtain ⟨q, hq⟩ := ih hs
      exact ⟨p :: q, by simp [Memory.write, hp, hq]⟩

theorem memoryWf_write {least : Nat} {m m' : Memory} {h : Nat} {off : Nat} {b : Byte}
    (hwf : memoryWf least m = true) (hw : Memory.write m h off b = some m') : memoryWf least m' = true := by
  induction m generalizing m' least with
  | nil => simp [Memory.write] at hw
  | cons p ps ih =>
    simp only [memoryWf, Bool.and_eq_true, decide_eq_true_eq] at hwf
    simp only [Memory.write] at hw
    split at hw
    · split at hw
      · rename_i ho
        obtain rfl := Option.some.inj hw
        simp [memoryWf, hwf.1.1, cellsWf_writeCell b hwf.1.2 (Nat.zero_le _) ho, hwf.2]
      · cases hw
    · cases hq : Memory.write ps h off b with
      | none => simp [hq] at hw
      | some q =>
        simp only [hq, Option.map_some, Option.some.injEq] at hw
        subst hw
        simp [memoryWf, hwf.1.1, hwf.1.2, ih hwf.2 hq]

/-! ## Several bytes -/

/-- What `MemWrite` of several bytes does inside an owned buffer. -/
theorem writeList_spec {m : Memory} {h : Nat} {off : Nat} {bs : List Byte} {n : BitVec 17}
    (hs : Memory.size? m h = some n) (ho : off + bs.length ≤ n.toNat) :
    ∃ m', Memory.writeList m h off bs = some m' ∧ (∀ h', Memory.size? m' h' = Memory.size? m h') ∧
      (∀ h' o, h' ≠ h → Memory.read m' h' o = Memory.read m h' o) ∧
      (∀ o, o < off ∨ off + bs.length ≤ o → Memory.read m' h o = Memory.read m h o) ∧
      (∀ i, i < bs.length → Memory.read m' h (off + i) = bs[i]?) ∧
      (∀ least, memoryWf least m = true → memoryWf least m' = true) := by
  induction bs generalizing m off with
  | nil => exact ⟨m, by simp [Memory.writeList]⟩
  | cons b bs ih =>
    obtain ⟨m1, hm1⟩ := write_isSome (off := off) b hs (by simp at ho; omega)
    obtain ⟨-, hr, hf, hz⟩ := write_spec hm1
    obtain ⟨m2, hm2, hz2, ho2, hk2, hr2, hw2⟩ :=
      ih (m := m1) (off := off + 1) (by rw [hz]; exact hs) (by simp at ho ⊢; omega)
    refine ⟨m2, by simp [Memory.writeList, hm1, hm2], fun h' => by rw [hz2, hz], ?_, ?_, ?_, ?_⟩
    · intro h' o hne; rw [ho2 h' o hne, hf]; simp [hne]
    · intro o hlt
      simp only [List.length_cons] at hlt
      rw [hk2 o (by omega), hf]; simp; omega
    · intro i hi
      cases i with
      | zero => simpa using (hk2 off (by omega)).trans hr
      | succ i => simpa [Nat.add_assoc, Nat.add_comm 1 i] using hr2 i (by simpa using hi)
    · intro least hl; exact hw2 least (memoryWf_write hl hm1)

/-- Reading several bytes answers exactly when each of them was written. -/
theorem readList_eq_some {m : Memory} {h : Nat} {off n : Nat} {bs : List Byte} :
    Memory.readList m h off n = some bs ↔
      bs.length = n ∧ ∀ i, i < n → Memory.read m h (off + i) = bs[i]? := by
  induction n generalizing off bs with
  | zero =>
    simp only [Memory.readList, Option.some.injEq, Nat.not_lt_zero, false_imp_iff, implies_true, and_true]
    exact ⟨fun hb => hb ▸ rfl, fun hl => (List.length_eq_zero_iff.1 hl).symm⟩
  | succ n ih =>
    simp only [Memory.readList]
    constructor
    · intro hyp
      split at hyp
      · rename_i b bs' hb hbs
        obtain rfl := Option.some.inj hyp
        obtain ⟨hl, hr⟩ := ih.1 hbs
        refine ⟨by simp [hl], fun i hi => ?_⟩
        cases i with
        | zero => simpa using hb
        | succ i => simpa [Nat.add_assoc, Nat.add_comm 1 i] using hr i (by omega)
      · cases hyp
    · rintro ⟨hl, hr⟩
      cases bs with
      | nil => simp at hl
      | cons b bs =>
        have h0 : Memory.read m h off = some b := by simpa using hr 0 (by omega)
        have h1 : Memory.readList m h (off + 1) n = some bs := ih.2 ⟨by simpa using hl, fun i hi => by
          simpa [Nat.add_assoc, Nat.add_comm 1 i] using hr (i + 1) (by omega)⟩
        simp [h0, h1]

theorem readList_isSome {m : Memory} {h : Nat} {off n : Nat}
    (hall : ∀ i, i < n → (Memory.read m h (off + i)).isSome = true) : ∃ bs, Memory.readList m h off n = some bs := by
  induction n generalizing off with
  | zero => exact ⟨[], rfl⟩
  | succ n ih =>
    obtain ⟨b, hb⟩ := Option.isSome_iff_exists.1 (by simpa using hall 0 (by omega))
    obtain ⟨bs, hbs⟩ := ih (off := off + 1) (fun i hi => by
      simpa [Nat.add_assoc, Nat.add_comm 1 i] using hall (i + 1) (by omega))
    exact ⟨b :: bs, by simp [Memory.readList, hb, hbs]⟩

/-! ## Taking a buffer and giving it up -/

theorem size?_acquire {m : Memory} {h : Nat} (n : BitVec 17) (hfresh : Memory.size? m h = none) (h' : Nat) :
    Memory.size? (Memory.acquire m h n) h' = if h' = h then some n else Memory.size? m h' := by
  induction m with
  | nil => simp [Memory.acquire, Memory.size?, eq_comm]
  | cons p ps ih =>
    have hp : p.handle ≠ h := by
      intro heq; simp [Memory.size?, heq] at hfresh
    simp only [Memory.size?, hp, if_false] at hfresh
    simp only [Memory.acquire]
    split
    · by_cases hh : h' = h
      · subst hh; simp [Memory.size?]
      · simp [Memory.size?, hh, Ne.symm hh]
    · by_cases hh : p.handle = h'
      · subst hh; simp [Memory.size?, hp]
      · simp [Memory.size?, hh, ih hfresh]

theorem read_acquire {m : Memory} {h : Nat} (n : BitVec 17) (hfresh : Memory.size? m h = none) (h' : Nat)
    (off : Nat) : Memory.read (Memory.acquire m h n) h' off = if h' = h then none else Memory.read m h' off := by
  induction m with
  | nil => by_cases hh : h' = h <;> simp [Memory.acquire, Memory.read, readCell, hh]
  | cons p ps ih =>
    have hp : p.handle ≠ h := by
      intro heq; simp [Memory.size?, heq] at hfresh
    simp only [Memory.size?, hp, if_false] at hfresh
    simp only [Memory.acquire]
    split
    · by_cases hh : h' = h
      · subst hh; simp [Memory.read, readCell]
      · simp [Memory.read, hh, Ne.symm hh]
    · by_cases hh : p.handle = h'
      · subst hh; simp [Memory.read, hp]
      · simp [Memory.read, hh, ih hfresh]

/-- Nothing in a buffer the block does not own can be read. -/
theorem read_of_not_owned {m : Memory} {h : Nat} (hs : Memory.size? m h = none) (off : Nat) :
    Memory.read m h off = none := by
  induction m with
  | nil => rfl
  | cons p ps ih =>
    by_cases hp : p.handle = h
    · simp [Memory.size?, hp] at hs
    · simp only [Memory.size?, hp, if_false] at hs
      simp [Memory.read, hp, ih hs]

theorem memoryWf_acquire {least : Nat} {m : Memory} {h : Nat} (n : BitVec 17) (hfresh : Memory.size? m h = none)
    (hl : least ≤ h) (hwf : memoryWf least m = true) : memoryWf least (Memory.acquire m h n) = true := by
  induction m generalizing least with
  | nil => simp [Memory.acquire, memoryWf, cellsWf, hl]
  | cons p ps ih =>
    have hp : p.handle ≠ h := by
      intro heq; simp [Memory.size?, heq] at hfresh
    simp only [Memory.size?, hp, if_false] at hfresh
    simp only [memoryWf, Bool.and_eq_true, decide_eq_true_eq] at hwf
    simp only [Memory.acquire]
    split
    · simp only [memoryWf, Bool.and_eq_true, decide_eq_true_eq]; exact ⟨⟨hl, rfl⟩, ⟨by omega, hwf.1.2⟩, hwf.2⟩
    · simp [memoryWf, hwf.1.1, hwf.1.2, ih hfresh (by omega) hwf.2]

theorem memoryWf_mono {least least' : Nat} {m : Memory} (hle : least ≤ least') (hwf : memoryWf least' m = true) :
    memoryWf least m = true := by
  cases m with
  | nil => rfl
  | cons p ps =>
    simp only [memoryWf, Bool.and_eq_true, decide_eq_true_eq] at hwf ⊢
    exact ⟨⟨by omega, hwf.1.2⟩, hwf.2⟩

theorem memoryWf_release {least : Nat} {m : Memory} (h : Nat) (hwf : memoryWf least m = true) :
    memoryWf least (Memory.release m h) = true := by
  induction m generalizing least with
  | nil => rfl
  | cons p ps ih =>
    simp only [memoryWf, Bool.and_eq_true, decide_eq_true_eq] at hwf
    have ih' := ih hwf.2
    simp only [Memory.release] at ih' ⊢
    by_cases hp : p.handle = h
    · simp only [List.filter_cons, hp]
      exact memoryWf_mono (Nat.le_succ_of_le (hp ▸ hwf.1.1)) (by simpa [hp] using ih')
    · have hd : decide (p.handle ≠ h) = true := by simpa using hp
      rw [List.filter_cons, if_pos hd]
      simp only [memoryWf, Bool.and_eq_true, decide_eq_true_eq]
      exact ⟨hwf.1, ih'⟩

theorem read_release (m : Memory) (h h' : Nat) (off : Nat) :
    Memory.read (Memory.release m h) h' off = if h' = h then none else Memory.read m h' off := by
  induction m with
  | nil => simp [Memory.release, Memory.read]
  | cons p ps ih =>
    simp only [Memory.release] at ih ⊢
    by_cases hp : p.handle = h
    · by_cases hh : h' = h
      · simp [hp, hh] at ih ⊢; exact ih
      · simp [hp, hh, Memory.read, Ne.symm hh] at ih ⊢; exact ih
    · by_cases hh : p.handle = h'
      · subst hh; simp [hp, Memory.read]
      · simp [hp, hh, Memory.read] at ih ⊢; exact ih

/-- The canonical form is kept by every operation on the memory. -/
theorem wf_write {m m' : Memory} {h : Nat} {off : Nat} {b : Byte} (hwf : Memory.wf m = true)
    (hw : Memory.write m h off b = some m') : Memory.wf m' = true := memoryWf_write hwf hw

theorem wf_acquire {m : Memory} {h : Nat} (n : BitVec 17) (hfresh : Memory.size? m h = none)
    (hwf : Memory.wf m = true) : Memory.wf (Memory.acquire m h n) = true :=
  memoryWf_acquire n hfresh (Nat.zero_le _) hwf

theorem wf_release {m : Memory} (h : Nat) (hwf : Memory.wf m = true) : Memory.wf (Memory.release m h) = true :=
  memoryWf_release h hwf

theorem wf_writeList {m m' : Memory} {h : Nat} {off : Nat} {bs : List Byte} (hwf : Memory.wf m = true)
    (hw : Memory.writeList m h off bs = some m') : Memory.wf m' = true := by
  induction bs generalizing m off with
  | nil => obtain rfl := Option.some.inj hw; exact hwf
  | cons b bs ih =>
    simp only [Memory.writeList] at hw
    split at hw
    · rename_i q hq; exact ih (wf_write hwf hq) hw
    · cases hw

theorem wf_reset : Memory.wf State.reset.mem = true := rfl

/-! ## Fresh handles -/

theorem size?_of_aboveHandles {m : Memory} {h : Nat} (hle : Memory.aboveHandles m ≤ h) : Memory.size? m h = none := by
  induction m with
  | nil => rfl
  | cons p ps ih =>
    simp only [Memory.aboveHandles, List.foldr_cons] at hle ih
    have hp : p.handle ≠ h := by omega
    simp [Memory.size?, hp, ih (by omega)]

/-- R9, R63: a fresh handle names no buffer the block owns. -/
theorem freshHandle_not_owned (m : Memory) (h : Nat) : Memory.size? m (Memory.freshHandle m h) = none := by
  unfold Memory.freshHandle
  split
  · exact size?_of_aboveHandles (Nat.le_refl _)
  · rename_i hn; simpa using hn

/-- With no buffer held every handle is fresh: the allocator may answer any of them (R9). -/
@[simp] theorem freshHandle_nil (h : Nat) : Memory.freshHandle [] h = h := rfl

end Sys2Proof.Machine
end

