-- ==== Sys2Proof/Laws/Ops.lean ====
section
/-! SUPPORT. For each shared operation, one lemma that says everything it can do. -/

namespace Sys2Proof.Machine

variable {s t : State}

/-! ## Sequencing -/

@[simp] theorem andThen_next (s : State) (f : State → Result) : andThen (.next s) f = f s := rfl

theorem andThen_eq_next {r : Result} {f : State → Result} :
    andThen r f = .next t ↔ ∃ s1, r = .next s1 ∧ f s1 = .next t := by
  cases r <;> simp [andThen]

theorem andThen_eq_fault {r : Result} {f : State → Result} {e : Fault} :
    andThen r f = .fault e ↔ r = .fault e ∨ ∃ s1, r = .next s1 ∧ f s1 = .fault e := by
  cases r <;> simp [andThen]

theorem andThen_eq_refused {r : Result} {f : State → Result} {e : Refusal} :
    andThen r f = .refused e ↔ r = .refused e ∨ ∃ s1, r = .next s1 ∧ f s1 = .refused e := by
  cases r <;> simp [andThen]

/-- The step reads one operation and runs it, idles, or refuses. -/
theorem fetch_eq_ok {i : Instr} {s1 : State} :
    fetch s = .ok (i, s1) ↔ ∃ rest, decode s.script = .ok (i, rest) ∧ s1 = { s with script := rest } := by
  unfold fetch
  split
  · rename_i j rest hd
    constructor
    · intro heq
      obtain ⟨rfl, rfl⟩ := Prod.mk.inj (Except.ok.inj heq)
      exact ⟨rest, hd, rfl⟩
    · rintro ⟨rest', hd', rfl⟩
      rw [hd] at hd'
      obtain ⟨rfl, rfl⟩ := Prod.mk.inj (Except.ok.inj hd')
      rfl
  · rename_i r hd
    constructor
    · intro heq; cases heq
    · rintro ⟨rest', hd', -⟩; rw [hd] at hd'; cases hd'

/-! ## The received byte -/

theorem takeRxByte_eq_some {b : Byte} {s1 : State} :
    s.takeRxByte = some (b, s1) ↔
      s.isrPhase ≠ .none ∧ ∃ rest, s.rxFifo = b :: rest ∧ s1 = { s with rxFifo := rest } := by
  unfold State.takeRxByte
  split
  · rename_i hp; simp [hp]
  · rename_i hp
    split
    · rename_i hf; simp [hf]
    · rename_i b' rest hf
      constructor
      · intro heq
        obtain ⟨rfl, rfl⟩ := Prod.mk.inj (Option.some.inj heq)
        exact ⟨hp, _, hf, rfl⟩
      · rintro ⟨-, rest', hf', rfl⟩
        rw [hf] at hf'
        obtain ⟨rfl, rfl⟩ := List.cons.inj hf'
        rfl

/-- `RX_BYTE` is enabled while a handler runs and a byte is available. -/
theorem takeRxByte_of_cons {b : Byte} {rest : List Byte} (hphase : s.isrPhase ≠ .none) (hfifo : s.rxFifo = b :: rest) :
    s.takeRxByte = some (b, { s with rxFifo := rest }) :=
  takeRxByte_eq_some.2 ⟨hphase, rest, hfifo, rfl⟩

theorem takeRxByte_eq_none : s.takeRxByte = none ↔ s.isrPhase = .none ∨ s.rxFifo = [] := by
  unfold State.takeRxByte
  split
  · simp_all
  · split <;> simp_all

/-! ## Header formats -/

theorem hdrLen_bounds (p : PacketType) : 2 ≤ p.hdrLen ∧ p.hdrLen ≤ 4 := by
  cases p <;> decide

/-- R55: the size is the exact sum. -/
theorem bufferSize_toNat (len : Half) (p : PacketType) : (p.bufferSize len).toNat = p.hdrLen + len.toNat := by
  have hl := len.isLt
  have hb := hdrLen_bounds p
  simp only [PacketType.bufferSize, BitVec.toNat_add, BitVec.toNat_ofNat, BitVec.truncate_eq_setWidth,
    BitVec.toNat_setWidth]
  omega

@[simp] theorem hdrBytes_take_length (hdr : HeaderBuffer) (p : PacketType) :
    (hdr.bytes.take p.hdrLen).length = p.hdrLen := by
  cases p <;> rfl

/-- R51: a header byte is stored exactly at the indices 0 to 3. -/
theorem hdrBuf_write_isSome {hdr : HeaderBuffer} {i : Nat} {b : Byte} :
    (∃ hdr', hdr.write i b = some hdr') ↔ i < 4 := by
  constructor
  · rintro ⟨hdr', hw⟩
    unfold HeaderBuffer.write at hw
    split at hw <;> first | omega | cases hw
  · intro hi
    match i, hi with
    | 0, _ => exact ⟨_, rfl⟩
    | 1, _ => exact ⟨_, rfl⟩
    | 2, _ => exact ⟨_, rfl⟩
    | 3, _ => exact ⟨_, rfl⟩

/-- The header bytes determine the Header Buffer. -/
theorem hdrBytes_injective {hdr hdr' : HeaderBuffer} (heq : hdr.bytes = hdr'.bytes) : hdr = hdr' := by
  cases hdr; cases hdr'; simpa [HeaderBuffer.bytes] using heq

/-- R101: a stored header byte changes the one entry it is stored at. -/
theorem hdrBuf_write_bytes {hdr : HeaderBuffer} {i : Nat} (b : Byte) (hi : i < 4) :
    ∃ hdr', hdr.write i b = some hdr' ∧ hdr'.bytes = hdr.bytes.set i b := by
  match i, hi with
  | 0, _ => exact ⟨_, rfl, rfl⟩
  | 1, _ => exact ⟨_, rfl, rfl⟩
  | 2, _ => exact ⟨_, rfl, rfl⟩
  | 3, _ => exact ⟨_, rfl, rfl⟩

theorem storeHeaderByte_eq_next {b : Byte} :
    storeHeaderByte b s = .next t ↔ ∃ hdr, s.hdrBuf.write s.hdrCursor.toNat b = some hdr ∧
      t = { s with hdrBuf := hdr, hdrCursor := s.hdrCursor + 1 } := by
  unfold storeHeaderByte
  split <;> rename_i hw <;> simp [hw, eq_comm]

/-! ## Allocation -/

/-- R9, R63: a granted handle names no buffer the block owns. -/
theorem allocAnswer_fresh {h : Nat} (ha : s.allocAnswer = .ok h) : Memory.size? s.mem h = none := by
  unfold State.allocAnswer at ha
  split at ha
  · obtain rfl := AllocAnswer.ok.inj ha; exact freshHandle_not_owned _ _
  · cases ha
  · split at ha
    · obtain rfl := AllocAnswer.ok.inj ha; exact freshHandle_not_owned _ _
    · cases ha

/-- Drawing the answer of `Alloc` changes no element the reassembler writes before it. -/
theorem allocDrawn_withHeader (fifo : List Byte) (hdr : HeaderBuffer) (cursor : BitVec 3) :
    State.allocDrawn { s with rxFifo := fifo, hdrBuf := hdr, hdrCursor := cursor } =
      { State.allocDrawn s with rxFifo := fifo, hdrBuf := hdr, hdrCursor := cursor } := by
  unfold State.allocDrawn
  dsimp only
  split <;> rfl

/-- R105, R106: a granted allocation always goes on, and this is the state it leaves. -/
theorem headerGranted_eq {p : PacketType} {h : Nat} (hfresh : Memory.size? s.mem h = none) :
    ∃ m, headerGranted p h s =
        .next { State.emit (.alloc p.pool (p.bufferSize (p.lenField s.hdrBuf)) (.ok h)) (State.allocDrawn s) with
          mem := m
          pktBuf := some h
          pktSize := p.bufferSize (p.lenField s.hdrBuf)
          wrCursor := BitVec.ofNat 17 p.hdrLen
          countdown := p.lenField s.hdrBuf
          rxState := if p.lenField s.hdrBuf = 0 then .complete else .data } ∧
      Memory.writeList (Memory.acquire s.mem h (p.bufferSize (p.lenField s.hdrBuf))) h 0
        (s.hdrBuf.bytes.take p.hdrLen) = some m ∧
      Memory.size? m h = some (p.bufferSize (p.lenField s.hdrBuf)) ∧
      (∀ i, i < p.hdrLen → Memory.read m h i = (s.hdrBuf.bytes.take p.hdrLen)[i]?) ∧
      (∀ i, p.hdrLen ≤ i → Memory.read m h i = none) ∧
      (∀ h' o, h' ≠ h → Memory.read m h' o = Memory.read s.mem h' o) ∧
      (Memory.wf s.mem = true → Memory.wf m = true) := by
  have hsz : Memory.size? (Memory.acquire s.mem h (p.bufferSize (p.lenField s.hdrBuf))) h =
      some (p.bufferSize (p.lenField s.hdrBuf)) := by simp [size?_acquire _ hfresh]
  obtain ⟨m, hm, hz, ho, hk, hr, hw⟩ := writeList_spec (off := 0) (bs := s.hdrBuf.bytes.take p.hdrLen) hsz (by
    rw [bufferSize_toNat, hdrBytes_take_length]; omega)
  refine ⟨m, by simp only [headerGranted, hm], hm, by rw [hz, hsz], ?_, ?_, ?_, ?_⟩
  · intro i hi; simpa only [Nat.zero_add] using hr i (by rw [hdrBytes_take_length]; exact hi)
  · intro i hi
    rw [hk i (Or.inr (by rw [hdrBytes_take_length]; omega)), read_acquire _ hfresh, if_pos rfl]
  · intro h' o hne; rw [ho h' o hne, read_acquire _ hfresh, if_neg hne]
  · intro hwf; exact hw 0 (memoryWf_acquire _ hfresh (Nat.zero_le _) hwf)

/-! ## Data bytes and completion -/

theorem dataByte_eq_next {b : Byte} :
    dataByte b s = .next t ↔ ∃ h m, s.pktBuf = some h ∧ s.countdown ≠ 0 ∧
      Memory.write s.mem h s.wrCursor.toNat b = some m ∧
      t = { s with
        mem := m, wrCursor := s.wrCursor + 1, countdown := s.countdown - 1,
        rxState := if s.countdown - 1 = 0 then .complete else .data } := by
  unfold dataByte
  constructor
  · intro heq
    split at heq
    · cases heq
    · rename_i h hb
      split at heq
      · cases heq
      · rename_i hc
        split at heq
        · rename_i m hm
          exact ⟨h, m, hb, hc, hm, (Host.Outcome.next.inj heq).symm⟩
        · cases heq
  · rintro ⟨h, m, hb, hc, hm, rfl⟩
    simp only [hb, hc, hm, if_false]

/-- R130, R137: what the Complete resolution can do. -/
theorem complete_eq_next :
    complete s = .next t ↔
      (s.pktBuf = none ∧ t = { s with pktBuf := none, rxState := .idle }) ∨
      ∃ h bytes, s.pktBuf = some h ∧ s.packetBytes h = some bytes ∧
        t = State.finishPacket h (completionEvents s.pktType bytes) s := by
  unfold complete
  constructor
  · intro heq
    split at heq
    · rename_i hb; exact Or.inl ⟨hb, (Host.Outcome.next.inj heq).symm⟩
    · rename_i h hb
      split at heq
      · rename_i bytes hr
        exact Or.inr ⟨h, bytes, hb, hr, (Host.Outcome.next.inj heq).symm⟩
      · cases heq
  · rintro (⟨hb, rfl⟩ | ⟨h, bytes, hb, hr, rfl⟩)
    · simp only [hb]
    · simp only [hb, hr]

theorem resolveComplete_of_ne (hne : s.rxState ≠ .complete) : resolveComplete s = .next s := by
  simp [resolveComplete, hne]

theorem resolveComplete_of_complete (heq : s.rxState = .complete) : resolveComplete s = complete s := by
  simp [resolveComplete, heq]

/-- R133, R134: one `Deliver` closes every resolution, and at most one `Inject` precedes it. -/
theorem completionEvents_cases (ty : Byte) (bytes : List Byte) :
    completionEvents ty bytes = [.deliver ty bytes] ∨
      ∃ v, vendorCc? ty bytes = some v ∧
        completionEvents ty bytes = [.inject v.opcode v.status v.dataLen v.data, .deliver ty bytes] := by
  unfold completionEvents
  split <;> simp_all

/-- R131: what a recognised vendor Command-Complete event is. -/
theorem vendorCc?_eq_some {ty : Byte} {bytes : List Byte} {v : VendorResponse} :
    vendorCc? ty bytes = some v ↔ ∃ len num lo hi status data,
      bytes = Config.evtCmdComplete :: len :: num :: lo :: hi :: status :: data ∧ ty = Config.typeEvt ∧
      4 ≤ len.toNat ∧ vendorOpcode (halfLE lo hi) = true ∧ v = ⟨halfLE lo hi, status, len - 4, data⟩ := by
  unfold vendorCc?
  split
  · rename_i code len num lo hi status data
    split
    · rename_i hc
      obtain ⟨h1, h2, h3, h4⟩ := hc
      constructor
      · intro heq
        exact ⟨len, num, lo, hi, status, data, by rw [h2], h1, h3, h4, (Option.some.inj heq).symm⟩
      · rintro ⟨len', num', lo', hi', st', d', heq, -, -, -, rfl⟩
        simp only [List.cons.injEq] at heq
        obtain ⟨-, rfl, rfl, rfl, rfl, rfl, rfl⟩ := heq
        rfl
    · rename_i hc
      constructor
      · intro heq; cases heq
      · rintro ⟨len', num', lo', hi', st', d', heq, h1, h3, h4, rfl⟩
        simp only [List.cons.injEq] at heq
        obtain ⟨rfl, rfl, rfl, rfl, rfl, rfl, rfl⟩ := heq
        exact absurd ⟨h1, rfl, h3, h4⟩ hc
  · rename_i hno
    constructor
    · intro heq; cases heq
    · rintro ⟨len', num', lo', hi', st', d', heq, -⟩
      exact absurd heq (by simpa using hno _ _ _ _ _ _ _)

/-! ## Transmission -/

theorem transmitByte_type (hp : s.txPhase = .type) :
    transmitByte s =
      .next { State.emit (.txByte s.txType) s with txPhase := if s.txLen = 0 then .done else .data } := by
  simp [transmitByte, hp]

theorem transmitByte_data {b : Byte} (hp : s.txPhase = .data) (hb : s.txData[s.txIdx.toNat]? = some b) :
    transmitByte s =
      .next { State.emit (.txByte b) s with
        txIdx := s.txIdx + 1, txPhase := if s.txIdx + 1 = s.txLen then .done else .data } := by
  simp [transmitByte, hp, hb]

theorem freeHeld_trace (s : State) :
    (State.freeHeld s).trace = s.trace ++ (match s.pktBuf with | some h => [.free h] | none => []) := by
  unfold State.freeHeld
  split <;> simp_all

end Sys2Proof.Machine
end

