-- ==== Sys2Proof/Laws/PerInstr.lean ====
section
/-! SUPPORT. Statements made per instruction. `LengthFromTag` is R85: the length of an encoded operation is known from
its tag and, for `WRITE_BEGIN`, from `length`. The rows of the formats rx_sel and evt_pattern have the length of
`RX_BYTE`; a row of format h4_type is no operation, and its one byte is not read as a tag. -/

namespace Sys2Proof.Laws.LengthFromTag

/-- R85. -/
def Statement (i : Instr) : Prop :=
  i.wf = true → i.format ≠ .h4Type → ∀ rest : List Byte, opLength (encode i ++ rest) = (encode i).length

theorem length_of_word {t : Byte} (h1 : t ≠ 0x10) (h2 : t ≠ 0x40) (rest : List Byte) : opLength ([t] ++ rest) = 1 := by
  simp only [opLength, List.singleton_append, List.getD_cons_zero, h1, h2, if_false]

theorem reset : Statement .reset := fun _ _ _ => rfl
theorem init : Statement .init := fun _ _ _ => rfl
theorem initSettle : Statement .initSettle := fun _ _ _ => rfl
theorem terminate : Statement .terminate := fun _ _ _ => rfl
theorem writeBegin (type : Byte) (length : Half) (data : List Byte) : Statement (.writeBegin type length data) := by
  intro hwf _ rest
  have hl : data.length = length.toNat := by simpa [Instr.wf] using hwf
  simp [opLength, encode, hl]
  omega
theorem writeByte : Statement .writeByte := fun _ _ _ => rfl
theorem writeEnd : Statement .writeEnd := fun _ _ _ => rfl
theorem rxirqEnter : Statement .rxirqEnter := fun _ _ _ => rfl
theorem rxByte : Statement .rxByte := fun _ _ _ => rfl
theorem rxirqExit : Statement .rxirqExit := fun _ _ _ => rfl
theorem hostwakeFall : Statement .hostwakeFall := fun _ _ _ => rfl
theorem hostwakeExit : Statement .hostwakeExit := fun _ _ _ => rfl
theorem envRxArrive (b : Byte) : Statement (.envRxArrive b) := fun _ _ _ => rfl
theorem envHostwakeEdge : Statement .envHostwakeEdge := fun _ _ _ => rfl
theorem unusedTag04 (low : BitVec 2) : Statement (.unusedTag04 low) := fun _ _ rest =>
  length_of_word (by revert low; decide) (by revert low; decide) rest
theorem unusedTag08 (low : BitVec 3) : Statement (.unusedTag08 low) := fun _ _ rest =>
  length_of_word (by revert low; decide) (by revert low; decide) rest
theorem unusedTag13 : Statement .unusedTag13 := fun _ _ _ => rfl
theorem unusedTag14 (low : BitVec 2) : Statement (.unusedTag14 low) := fun _ _ rest =>
  length_of_word (by revert low; decide) (by revert low; decide) rest
theorem unusedTag18 (low : BitVec 3) : Statement (.unusedTag18 low) := fun _ _ rest =>
  length_of_word (by revert low; decide) (by revert low; decide) rest
theorem unusedTag23 : Statement .unusedTag23 := fun _ _ _ => rfl
theorem unusedTag24 (low : BitVec 2) : Statement (.unusedTag24 low) := fun _ _ rest =>
  length_of_word (by revert low; decide) (by revert low; decide) rest
theorem unusedTag28 (low : BitVec 3) : Statement (.unusedTag28 low) := fun _ _ rest =>
  length_of_word (by revert low; decide) (by revert low; decide) rest
theorem unusedTag32 (low : BitVec 1) : Statement (.unusedTag32 low) := fun _ _ rest =>
  length_of_word (by revert low; decide) (by revert low; decide) rest
theorem unusedTag34 (low : BitVec 2) : Statement (.unusedTag34 low) := fun _ _ rest =>
  length_of_word (by revert low; decide) (by revert low; decide) rest
theorem unusedTag38 (low : BitVec 3) : Statement (.unusedTag38 low) := fun _ _ rest =>
  length_of_word (by revert low; decide) (by revert low; decide) rest
theorem unusedTag42 (low : BitVec 1) : Statement (.unusedTag42 low) := fun _ _ rest =>
  length_of_word (by revert low; decide) (by revert low; decide) rest
theorem unusedTag44 (low : BitVec 2) : Statement (.unusedTag44 low) := fun _ _ rest =>
  length_of_word (by revert low; decide) (by revert low; decide) rest
theorem unusedTag48 (low : BitVec 3) : Statement (.unusedTag48 low) := fun _ _ rest =>
  length_of_word (by revert low; decide) (by revert low; decide) rest
theorem unusedTag50 (low : BitVec 4) : Statement (.unusedTag50 low) := fun _ _ rest =>
  length_of_word (by revert low; decide) (by revert low; decide) rest
theorem unusedTag60 (low : BitVec 5) : Statement (.unusedTag60 low) := fun _ _ rest =>
  length_of_word (by revert low; decide) (by revert low; decide) rest
theorem unusedTag80 (low : BitVec 7) : Statement (.unusedTag80 low) := fun _ _ rest =>
  length_of_word (by revert low; decide) (by revert low; decide) rest
theorem h4Cmd : Statement .h4Cmd := fun _ hne _ => absurd rfl hne
theorem h4Acl : Statement .h4Acl := fun _ hne _ => absurd rfl hne
theorem h4Evt : Statement .h4Evt := fun _ hne _ => absurd rfl hne
theorem h4SyncInvalid : Statement .h4SyncInvalid := fun _ hne _ => absurd rfl hne
theorem h4Invalid00 : Statement .h4Invalid00 := fun _ hne _ => absurd rfl hne
theorem h4Invalid05 : Statement .h4Invalid05 := fun _ hne _ => absurd rfl hne
theorem h4Invalid06 (low : BitVec 1) : Statement (.h4Invalid06 low) := fun _ hne _ => absurd rfl hne
theorem h4Invalid08 (low : BitVec 3) : Statement (.h4Invalid08 low) := fun _ hne _ => absurd rfl hne
theorem h4Invalid10 (low : BitVec 4) : Statement (.h4Invalid10 low) := fun _ hne _ => absurd rfl hne
theorem h4Invalid20 (low : BitVec 5) : Statement (.h4Invalid20 low) := fun _ hne _ => absurd rfl hne
theorem h4Invalid40 (low : BitVec 6) : Statement (.h4Invalid40 low) := fun _ hne _ => absurd rfl hne
theorem h4Invalid80 (low : BitVec 7) : Statement (.h4Invalid80 low) := fun _ hne _ => absurd rfl hne
theorem rxByteIdle : Statement .rxByteIdle := fun _ _ _ => rfl
theorem rxByteHeaderPartial : Statement .rxByteHeaderPartial := fun _ _ _ => rfl
theorem rxByteHeaderComplete : Statement .rxByteHeaderComplete := fun _ _ _ => rfl
theorem rxByteHeaderBadtype : Statement .rxByteHeaderBadtype := fun _ _ _ => rfl
theorem rxByteDataMore : Statement .rxByteDataMore := fun _ _ _ => rfl
theorem rxByteDataLast : Statement .rxByteDataLast := fun _ _ _ => rfl
theorem rxByteError : Statement .rxByteError := fun _ _ _ => rfl
theorem completeVendorCc : Statement .completeVendorCc := fun _ _ _ => rfl
theorem completePlain : Statement .completePlain := fun _ _ _ => rfl

end Sys2Proof.Laws.LengthFromTag
end

