-- ==== Sys2Proof/Tests/Slice0.lean ====
section
/-! SUPPORT. Tests: the well-formedness smoke test, words written out from spec/30_encoding.md, single steps with the
results of spec/95_test_vectors.md (the vector is named at each test), and for every obligation with hypotheses a witness
that they can be met together. -/

namespace Sys2Proof.Tests

open Sys2Proof Sys2Proof.Machine

/-! ## Well-formedness -/

theorem test_wf_refuses_short_data : (Instr.writeBegin 0x01 3 [0x03, 0x0C]).wf = false := by decide
theorem test_wf_refuses_long_data : (Instr.writeBegin 0x01 0 [0x03]).wf = false := by decide
theorem test_wf_accepts_exact_data : (Instr.writeBegin 0x01 2 [0x03, 0x0C]).wf = true := by decide

/-! ## Decoding: words written out from R83 and R85 -/

theorem test_decode_reset : decode [0x00, 0x77] = .ok (.reset, [0x77]) := by rfl
theorem test_decode_init : decode [0x01] = .ok (.init, []) := by rfl
theorem test_decode_initSettle : decode [0x02] = .ok (.initSettle, []) := by rfl
theorem test_decode_terminate : decode [0x03] = .ok (.terminate, []) := by rfl
/-- The low byte of `length` comes first. -/
theorem test_decode_writeBegin_length_order :
    decode [0x10, 0xFF, 0x02, 0x00, 0xAA, 0xBB, 0x12] = .ok (.writeBegin 0xFF 2 [0xAA, 0xBB], [0x12]) := by rfl
theorem test_decode_writeBegin_truncated : decode [0x10, 0x01, 0x03, 0x00, 0x03, 0x0C] = .error .truncated := by rfl
theorem test_decode_writeByte : decode [0x11] = .ok (.writeByte, []) := by rfl
theorem test_decode_writeEnd : decode [0x12] = .ok (.writeEnd, []) := by rfl
theorem test_decode_rxirqEnter : decode [0x20] = .ok (.rxirqEnter, []) := by rfl
theorem test_decode_rxByte : decode [0x21, 0x21] = .ok (.rxByte, [0x21]) := by rfl
theorem test_decode_rxirqExit : decode [0x22] = .ok (.rxirqExit, []) := by rfl
theorem test_decode_hostwakeFall : decode [0x30] = .ok (.hostwakeFall, []) := by rfl
theorem test_decode_hostwakeExit : decode [0x31] = .ok (.hostwakeExit, []) := by rfl
theorem test_decode_envRxArrive : decode [0x40, 0x0E] = .ok (.envRxArrive 0x0E, []) := by rfl
theorem test_decode_envHostwakeEdge : decode [0x41] = .ok (.envHostwakeEdge, []) := by rfl
/-- The unused ranges of R83, at the top of each row: 0x07, 0x0F, 0x13, 0x17, 0x1F, 0x23, 0x27, 0x2F. -/
theorem test_decode_unused_below_0x30 :
    [0x07, 0x0F, 0x13, 0x17, 0x1F, 0x23, 0x27, 0x2F].map (fun t : Byte => (decode [t]).toOption.map Prod.fst) =
      [some (.unusedTag04 3), some (.unusedTag08 7), some .unusedTag13, some (.unusedTag14 3), some (.unusedTag18 7),
        some .unusedTag23, some (.unusedTag24 3), some (.unusedTag28 7)] := by rfl
/-- The unused ranges of R83, at the top of each row: 0x33, 0x37, 0x3F, 0x43, 0x47, 0x4F, 0x5F, 0x7F, 0xFF. -/
theorem test_decode_unused_above_0x30 :
    [0x33, 0x37, 0x3F, 0x43, 0x47, 0x4F, 0x5F, 0x7F, 0xFF].map (fun t : Byte => (decode [t]).toOption.map Prod.fst) =
      [some (.unusedTag32 1), some (.unusedTag34 3), some (.unusedTag38 7), some (.unusedTag42 1),
        some (.unusedTag44 3), some (.unusedTag48 7), some (.unusedTag50 15), some (.unusedTag60 31),
        some (.unusedTag80 127)] := by rfl
/-- R72: the valid types and Synchronous-Data. -/
theorem test_decodeType_named :
    [0x01, 0x02, 0x04, 0x03, 0x00, 0x05].map decodeType =
      [some .h4Cmd, some .h4Acl, some .h4Evt, some .h4SyncInvalid, some .h4Invalid00, some .h4Invalid05] := by rfl
/-- R72: the ranges of invalid types, at the bottom of each row. -/
theorem test_decodeType_ranges :
    [0x06, 0x08, 0x10, 0x20, 0x40, 0x80].map decodeType =
      [some (.h4Invalid06 0), some (.h4Invalid08 0), some (.h4Invalid10 0), some (.h4Invalid20 0),
        some (.h4Invalid40 0), some (.h4Invalid80 0)] := by rfl
/-- The rows of rx_sel and evt_pattern have the word of `RX_BYTE`, tag 0x21 (R84). -/
theorem test_selected_rows_have_the_word_of_rxByte :
    [Instr.rxByteIdle, .rxByteHeaderPartial, .rxByteHeaderComplete, .rxByteHeaderBadtype, .rxByteDataMore,
      .rxByteDataLast, .rxByteError, .completeVendorCc, .completePlain].map encode = List.replicate 9 [0x21] := by rfl

theorem test_decodeTableWord_one_byte : decodeTableWord 8 0x21 = some .rxByte := by rfl
/-- The second byte is bits 15 to 8. -/
theorem test_decodeTableWord_operand : decodeTableWord 16 0x0E40 = some (.envRxArrive 0x0E) := by rfl
/-- The words above `nbits` are zero. -/
theorem test_decodeTableWord_zero_operands : decodeTableWord 8 0x10 = some (.writeBegin 0 0 []) := by rfl
theorem test_decodeTableWord_zero_data : decodeTableWord 32 0x00020110 = some (.writeBegin 1 2 [0, 0]) := by rfl

/-! ## Single steps -/

/-- What a projection reads in the next state, if there is one. -/
def after {α : Type} (r : Result) (f : State → α) : Option α :=
  match r with
  | .next t => some (f t)
  | .fault _ | .refused _ => none

/-- `ready` of spec/95_test_vectors.md, with the host-wake handler armed, and recorded draws. -/
def ready : State :=
  { State.reset with
    initState := .ready, uartCfg := some initUartCfg, rxIrqArmed := true, hwIrqArmed := true, devWake := false,
    allocDraws := [.ok 7], readyDraws := [true, true], spuriousDraws := [true] }

/-- The receive handler of `ready`, with bytes to drain. -/
def draining (bytes : List Byte) : State := { ready with devWake := true, isrPhase := .rx, rxFifo := bytes }

/-- The header `01 20 len_lo` of an ACL-Data packet is in, and the byte `len_hi` arrives. -/
def aclHeader (lenLo lenHi : Byte) : State :=
  { draining [lenHi, 0x55] with
    rxState := .header, pktType := 0x02, hdrBuf := ⟨0x01, 0x20, lenLo, 0x99⟩, hdrCursor := 3 }

/-- The header byte `code` of an Event is in, and the byte `len` arrives. -/
def eventHeader (code len : Byte) : State :=
  { draining [len] with rxState := .header, pktType := 0x04, hdrBuf := ⟨code, 0, 0, 0⟩, hdrCursor := 1 }

/-- The vendor Command-Complete of V31 but its last byte, the status. -/
def vendorData : State :=
  { draining [0x12, 0x04] with
    rxState := .data, pktType := 0x04, hdrBuf := ⟨0x0E, 0x04, 0, 0⟩, hdrCursor := 2, countdown := 1
    pktBuf := some 7, pktSize := 6, wrCursor := 5
    mem := [⟨7, 6, [(0, 0x0E), (1, 0x04), (2, 0x01), (3, 0x54), (4, 0xFD)]⟩] }

/-- A Command packet `03 0C 02`, with both its parameter bytes to come. -/
def commandData : State :=
  { draining [0xAA, 0xBB] with
    rxState := .data, pktType := 0x01, hdrBuf := ⟨0x03, 0x0C, 0x02, 0⟩, hdrCursor := 3, countdown := 2
    pktBuf := some 7, pktSize := 5, wrCursor := 3, mem := [⟨7, 5, [(0, 0x03), (1, 0x0C), (2, 0x02)]⟩] }

/-- A write of `03 0C 00` in progress, at its byte `idx`. -/
def sending (idx : Half) : State :=
  { ready with devWake := true, txPhase := .data, txType := 0x01, txLen := 3, txIdx := idx, txData := [0x03, 0x0C, 0x00] }

/-- V11. -/
theorem test_rxByte_takes_any_type :
    after (exec .rxByte (draining [0x00])) (fun t => (t.rxState, t.pktType, t.rxFifo)) = some (.header, 0x00, []) := by
  decide
/-- V12. -/
theorem test_rxByte_header_partial :
    after (exec .rxByte { draining [0x0E, 0x06] with rxState := .header, pktType := 0x04 })
      (fun t => (t.rxState, t.hdrBuf.b0, t.hdrCursor, t.rxFifo)) = some (.header, 0x0E, 1, [0x06]) := by decide
/-- V15: the length is little-endian, and the size is exact. -/
theorem test_rxByte_acl_header_complete :
    after (exec .rxByte (aclHeader 0x00 0x01))
      (fun t => (t.rxState, t.countdown, t.pktSize, t.pktBuf, t.trace)) =
      some (.data, 256, 260, some 7, [.alloc .acl 260 (.ok 7)]) := by decide
/-- V16: the largest packet. -/
theorem test_rxByteHeaderComplete_largest :
    after (exec .rxByteHeaderComplete (aclHeader 0xFF 0xFF)) (fun t => (t.rxState, t.countdown, t.pktSize)) =
      some (.data, 65535, 65539) := by decide
/-- V6: no payload, no `DATA`. -/
theorem test_rxByte_zero_payload :
    after (exec .rxByte (eventHeader 0x10 0x00)) (fun t => (t.rxState, t.pktBuf, t.mem, t.trace)) =
      some (.idle, none, [], [.alloc .msg 2 (.ok 7), .deliver 0x04 [0x10, 0x00]]) := by decide
/-- V22. -/
theorem test_rxByte_allocation_fails :
    after (exec .rxByte { eventHeader 0x0E 0x04 with allocDraws := [.fail] })
      (fun t => (t.rxState, t.allocFailCount, t.pktBuf, t.trace)) =
      some (.error, 1, none, [.alloc .msg 6 .fail]) := by decide
/-- V19: the valid byte 04 is lost with the bad type. -/
theorem test_rxByteHeaderBadtype :
    after (exec .rxByteHeaderBadtype { draining [0x04] with rxState := .header, pktType := 0x03 })
      (fun t => (t.rxState, t.badTypeCount, t.rxFifo)) = some (.idle, 1, []) := by decide
/-- V3, its fifth byte. -/
theorem test_rxByteDataMore :
    after (exec .rxByteDataMore commandData) (fun t => (t.countdown, t.wrCursor, Memory.read t.mem 7 3)) =
      some (1, 4, some 0xAA) := by decide
/-- V31, with status 0x12. -/
theorem test_rxByteDataLast_vendor :
    after (exec .rxByteDataLast vendorData) (fun t => (t.rxState, t.trace)) =
      some (.idle, [.inject 0xFD54 0x12 0 [], .deliver 0x04 [0x0E, 0x04, 0x01, 0x54, 0xFD, 0x12]]) := by decide
/-- V5: N = 7. -/
theorem test_vendorCc_fields :
    vendorCc? 0x04 [0x0E, 0x07, 0x01, 0x02, 0xFC, 0x12, 0xAA, 0xBB, 0xCC] =
      some ⟨0xFC02, 0x12, 3, [0xAA, 0xBB, 0xCC]⟩ := by decide
/-- V30, V32, V34, V35, V38: each fails one condition of R131. -/
theorem test_isVendorCc_refuses :
    [isVendorCc 0x04 [0x0E, 0x04, 0x01, 0x03, 0x0C, 0x00], isVendorCc 0x04 [0x0E, 0x03, 0x01, 0x01, 0xFC],
      isVendorCc 0x04 [0x0F, 0x04, 0x00, 0x01, 0x01, 0xFC], isVendorCc 0x04 [0x0E, 0x04, 0x01, 0xFF, 0xFB, 0x00],
      isVendorCc 0x02 [0x0E, 0x00, 0x05, 0x00, 0x01, 0x01, 0xFC, 0x00, 0x02]] = List.replicate 5 false := by decide
/-- V23. -/
theorem test_rxByteError : after (exec .rxByteError { draining [0x04] with rxState := .error })
    (fun t => (t.rxState, t.rxFifo, t.trace)) = some (.error, [], []) := by decide
/-- V25: a held buffer is freed. -/
theorem test_reset_frees :
    after (exec .reset commandData) (fun t => (t.rxState, t.mem, t.initState, t.devWake, t.trace)) =
      some (.idle, [], .uninit, true, [.free 7]) := by decide
/-- V72: faults survive. -/
theorem test_reset_keeps_faults :
    after (exec .reset { ready with faults := ⟨false, true⟩ }) (fun t => t.faults) = some ⟨false, true⟩ := by decide
/-- V51: the handler is armed, device-wake keeps its reset value. -/
theorem test_init : after (exec .init State.reset) (fun t => (t.initState, t.rxIrqArmed, t.devWake)) =
    some (.settling, true, true) := by decide
/-- V53. -/
theorem test_init_twice : after (exec .init ready) (fun t => (t.faults, t.trace, t.initState)) =
    some (⟨false, true⟩, [.fault .initTwice], .ready) := by decide
/-- V52. -/
theorem test_initSettle :
    after (exec .initSettle { ready with initState := .settling, devWake := true })
      (fun t => (t.initState, t.devWake, t.trace)) = some (.ready, false, [.devWake false]) := by decide
/-- V55: the settle delay counts as before `READY`. -/
theorem test_writeBegin_while_settling :
    after (exec (.writeBegin 0x01 0 []) { ready with initState := .settling })
      (fun t => (t.faults, t.trace, t.txPhase)) =
      some (⟨true, false⟩, [.fault .writeBeforeInit], .idle) := by decide
/-- V56. -/
theorem test_writeBegin :
    after (exec (.writeBegin 0x01 3 [0x03, 0x0C, 0x00]) ready) (fun t => (t.txPhase, t.txType, t.txIdx, t.trace)) =
      some (.type, 0x01, 0, [.devWake true]) := by decide
/-- V57: no data. -/
theorem test_writeByte_type_of_empty_write :
    after (exec .writeByte { ready with txPhase := .type, txType := 0x04 }) (fun t => (t.txPhase, t.trace)) =
      some (.done, [.txByte 0x04]) := by decide
/-- V56, its last data byte. -/
theorem test_writeByte_last :
    after (exec .writeByte (sending 2)) (fun t => (t.txPhase, t.txIdx, t.trace)) =
      some (.done, 3, [.txByte 0x00]) := by decide
/-- V56. -/
theorem test_writeEnd :
    after (exec .writeEnd { sending 3 with txPhase := .done }) (fun t => (t.txPhase, t.devWake, t.trace)) =
      some (.idle, false, [.devWake false, .writeReturn 3]) := by decide
/-- V60. -/
theorem test_rxirqEnter_spurious : after (exec .rxirqEnter ready) (fun t => (t.isrPhase, t.trace)) =
    some (.rx, [.devWake true]) := by decide
/-- V64: the handler does not exit while a byte is available. -/
theorem test_rxirqExit_waits : after (exec .rxirqExit (draining [0x10])) (fun t => (t.isrPhase, t.devWake)) =
    some (.rx, true) := by decide
/-- V61. -/
theorem test_hostwakeFall :
    after (exec .hostwakeFall { ready with hwPending := true })
      (fun t => (t.isrPhase, t.hwPending, t.sleepLocked, t.trace)) =
      some (.hostWake, false, true, [.sleepLock, .devWake true]) := by decide
/-- V61. -/
theorem test_hostwakeExit :
    after (exec .hostwakeExit { draining [] with isrPhase := .hostWake, sleepLocked := true })
      (fun t => (t.isrPhase, t.sleepLocked, t.trace)) =
      some (.none, false, [.devWake false, .sleepUnlock]) := by decide
/-- V66: not enabled before `INIT`. -/
theorem test_envRxArrive_before_init : exec (.envRxArrive 0x04) State.reset = .next State.reset := by rfl
/-- V62: the edge is lost. -/
theorem test_envHostwakeEdge_lost :
    after (exec .envHostwakeEdge { ready with hwIrqArmed := false }) (fun t => t.hwPending) = some false := by decide
/-- V37. -/
theorem test_completeVendorCc :
    after (exec .completeVendorCc
        { draining [] with
          rxState := .complete, pktType := 0x04, pktBuf := some 7, pktSize := 6
          mem := [⟨7, 6, [(0, 0x0E), (1, 0x04), (2, 0x01), (3, 0xFF), (4, 0xFF), (5, 0x01)]⟩] })
      (fun t => (t.rxState, t.trace)) =
      some (.idle, [.inject 0xFFFF 0x01 0 [], .deliver 0x04 [0x0E, 0x04, 0x01, 0xFF, 0xFF, 0x01]]) := by decide
/-- V33. -/
theorem test_completePlain :
    after (exec .completePlain
        { draining [] with
          rxState := .complete, pktType := 0x04, pktBuf := some 7, pktSize := 2, mem := [⟨7, 2, [(0, 0x0E), (1, 0x00)]⟩] })
      (fun t => (t.rxState, t.pktBuf, t.trace)) = some (.idle, none, [.deliver 0x04 [0x0E, 0x00]]) := by decide
/-- V20: 04 after the bad type 00 is discarded, in the row of type 0x00. -/
theorem test_h4Invalid00 :
    after (exec .h4Invalid00 { draining [0x04] with rxState := .header, pktType := 0x00 })
      (fun t => (t.rxState, t.badTypeCount)) = some (.idle, 1) := by decide
/-- V14: the row `H4_ACL` on the last byte of its header. -/
theorem test_h4Acl : after (exec .h4Acl (aclHeader 0x00 0x00)) (fun t => (t.rxState, t.trace)) =
    some (.idle, [.alloc .acl 4 (.ok 7), .deliver 0x02 [0x01, 0x20, 0x00, 0x00]]) := by decide
/-- R83. -/
theorem test_unused_tag_refused : step (ready.withFetchWord 8 0x04) = .refused (.unusedTag 0x04) := by rfl
/-- V10, through the script. -/
theorem test_step_runs_the_word :
    after (step ((draining [0xFF]).withFetchWord 8 0x21)) (fun t => (t.rxState, t.pktType, t.script)) =
      some (.header, 0xFF, []) := by decide
/-- Memory: a cell written twice is one cell. -/
theorem test_memory_rewrite :
    Memory.write [⟨7, 4, [(0, 0x11), (3, 0x33)]⟩] 7 3 0x44 = some [⟨7, 4, [(0, 0x11), (3, 0x44)]⟩] := by decide
theorem test_memory_bounds : Memory.write [⟨7, 4, []⟩] 7 4 0x44 = none ∧ Memory.write [⟨7, 4, []⟩] 8 0 0x44 = none ∧
    Memory.read [⟨7, 4, []⟩] 7 0 = none := by decide

/-- R22, R31, R200, R202. -/
theorem test_codes :
    (RxState.error.code, InitState.ready.code, IsrPhase.hostWake.code, TxPhase.done.code) = (4, 2, 2, 3) ∧
    (FaultCode.writeBeforeInit.code, FaultCode.initTwice.code) = (0x01, 0x02) ∧
    (ErrorCondition.badType.code, ErrorCondition.allocFail.code) = (0x10, 0x11) := by decide

/-! ## Witnesses: the hypotheses of the obligations can be met together -/

theorem witness_DecodeReadsBackEveryOperation :
    (Instr.writeBegin 0x01 3 [0x03, 0x0C, 0x00]).format = .opTag ∧
    (Instr.writeBegin 0x01 3 [0x03, 0x0C, 0x00]).wf = true ∧ (Instr.unusedTag80 127).format = .opTag := by decide
theorem witness_EncodeWritesBackWhatWasRead : ∃ i, decode [0x40, 0x0E, 0x41] = .ok (i, [0x41]) := ⟨_, rfl⟩
theorem witness_StepRunsTheDecodedOperation :
    decode { ready with script := [0x40, 0x0E, 0x20] }.script = .ok (.envRxArrive 0x0E, [0x20]) := rfl
/-- Both clauses; the second at one byte short. -/
theorem witness_StepIdlesOnEmptyAndRefusesTruncated :
    ready.script = [] ∧ ([] : List Byte).length < (1 : Half).toNat ∧
    { ready with script := [0x10, 0x01, 0x01, 0x00] }.script = 0x10 :: 0x01 :: loByte 1 :: hiByte 1 :: [] := by decide
theorem witness_UnusedTagsAreRefused : (Instr.unusedTag04 0).agent = none ∧ (Instr.unusedTag80 127).agent = none := by
  decide
theorem witness_ResetValuesOfEveryElement : ∃ t, exec .reset commandData = .next t := ⟨_, rfl⟩
theorem witness_InitConfiguresAndArms : State.reset.isrPhase = .none ∧ State.reset.initState = .uninit := by decide
theorem witness_SecondInitRaisesInitTwice : ready.isrPhase = .none ∧ ready.initState ≠ .uninit := by decide
theorem witness_InitSettleDeassertsDeviceWake :
    { ready with initState := .settling }.isrPhase = .none ∧
    { ready with initState := .settling }.initState = .settling := by decide
theorem witness_WriteBeginCapturesTheFrame :
    ready.isrPhase = .none ∧ ready.initState = .ready ∧ ready.txPhase = .idle ∧
    ([0x03, 0x0C, 0x00] : List Byte).length = (3 : Half).toNat ∧
    ([0x03, 0x0C] : List Byte).length < (3 : Half).toNat := by decide
theorem witness_WriteBeforeReadyRaisesFault :
    State.reset.isrPhase = .none ∧ State.reset.initState ≠ .ready ∧
    { ready with initState := .settling }.initState ≠ .ready := by decide
/-- The type byte; the last data byte. -/
theorem witness_WriteByteTransmitsOneByte :
    ({ ready with txPhase := .type }.isrPhase = .none ∧ { ready with txPhase := .type }.txPhase = .type ∧
      { ready with txPhase := .type }.uartReady = true) ∧
    ((sending 2).isrPhase = .none ∧ (sending 2).txPhase = .data ∧ (sending 2).uartReady = true ∧
      (sending 2).txData[(sending 2).txIdx.toNat]? = some 0x00) := by decide
theorem witness_WriteByteWaitsForTheUart :
    { sending 0 with readyDraws := [false] }.isrPhase = .none ∧
    { sending 0 with readyDraws := [false] }.txPhase = .data ∧
    { sending 0 with readyDraws := [false] }.uartReady = false := by decide
theorem witness_WriteEndReturnsTheLength :
    { sending 3 with txPhase := .done }.isrPhase = .none ∧ { sending 3 with txPhase := .done }.txPhase = .done := by
  decide
theorem witness_CompletedWriteSendsTheWholeFrame :
    ready.isrPhase = .none ∧ ready.initState = .ready ∧ ready.txPhase = .idle ∧
    ([0xAA] : List Byte).length = (1 : Half).toNat ∧
    ready.readyDraws = List.replicate (1 + ([0xAA] : List Byte).length) true ++ [] := by decide
/-- With a byte; spurious. -/
theorem witness_RxirqEnterAssertsDeviceWake :
    (ready.isrPhase = .none ∧ ready.rxIrqArmed = true ∧ { ready with rxFifo := [0x04] }.rxFifo ≠ []) ∧
    (ready.rxFifo = [] ∧ ready.spurious = true) := by decide
theorem witness_SpuriousEntryOnlyTogglesDeviceWake :
    ready.isrPhase = .none ∧ ready.rxIrqArmed = true ∧ ready.rxFifo = [] ∧ ready.spurious = true := by decide
/-- Both clauses; the second with one byte left. -/
theorem witness_RxirqExitDeassertsDeviceWake :
    ((draining []).isrPhase = .rx ∧ (draining []).rxFifo = []) ∧
    ((draining [0x10]).isrPhase = .rx ∧ (draining [0x10]).rxFifo ≠ [] ∧ ∃ t, exec .rxirqExit (draining [0x10]) = .next t) :=
  ⟨by decide, by decide, by decide, _, rfl⟩
theorem witness_HostwakeFallTakesTheSleepLock :
    { ready with hwPending := true }.isrPhase = .none ∧ { ready with hwPending := true }.hwPending = true := by decide
theorem witness_HostwakeExitReleasesTheSleepLock :
    { draining [] with isrPhase := .hostWake }.isrPhase = .hostWake ∧
    { draining [] with isrPhase := .hostWake }.rxFifo = [] := by decide
theorem witness_ArrivingByteJoinsTheFifo : ready.rxIrqArmed = true := by decide
theorem witness_HostwakeEdgeSetsThePendingBit :
    ready.hwIrqArmed = true ∧ { ready with hwIrqArmed := false }.hwIrqArmed = false := by decide
theorem witness_FifoIsFirstInFirstOut : ∃ t, Instr.rxByte ≠ .reset ∧ exec .rxByte (draining [0x04]) = .next t :=
  ⟨_, by decide, rfl⟩
theorem witness_IdleByteIsTakenAsType :
    (draining [0xFF]).isrPhase ≠ .none ∧ (draining [0xFF]).rxFifo = 0xFF :: [] ∧ (draining [0xFF]).rxState = .idle := by
  decide
/-- The largest cursor that does not complete a header: the third byte of an ACL-Data header. -/
theorem witness_PartialHeaderByteIsStored :
    { aclHeader 0 0 with hdrCursor := 2 }.isrPhase ≠ .none ∧
    { aclHeader 0 0 with hdrCursor := 2 }.rxFifo = 0 :: [0x55] ∧
    { aclHeader 0 0 with hdrCursor := 2 }.rxState = .header ∧
    packetType? { aclHeader 0 0 with hdrCursor := 2 }.pktType = some .aclData ∧
    { aclHeader 0 0 with hdrCursor := 2 }.hdrCursor.toNat + 1 < PacketType.aclData.hdrLen := by decide
/-- The longest payload. -/
theorem witness_CompletedHeaderTakesABuffer :
    (aclHeader 0xFF 0xFF).isrPhase ≠ .none ∧ (aclHeader 0xFF 0xFF).rxFifo = 0xFF :: [0x55] ∧
    (aclHeader 0xFF 0xFF).rxState = .header ∧ packetType? (aclHeader 0xFF 0xFF).pktType = some .aclData ∧
    (aclHeader 0xFF 0xFF).hdrCursor.toNat + 1 = PacketType.aclData.hdrLen ∧
    (⟨0x01, 0x20, 0xFF, 0xFF⟩ : HeaderBuffer).bytes =
      (aclHeader 0xFF 0xFF).hdrBuf.bytes.set (aclHeader 0xFF 0xFF).hdrCursor.toNat 0xFF ∧
    (aclHeader 0xFF 0xFF).allocAnswer = .ok 7 ∧ PacketType.aclData.lenField ⟨0x01, 0x20, 0xFF, 0xFF⟩ ≠ 0 := by decide
theorem witness_ZeroPayloadPacketIsDeliveredAtOnce :
    (eventHeader 0x10 0x00).isrPhase ≠ .none ∧ (eventHeader 0x10 0x00).rxFifo = 0x00 :: [] ∧
    (eventHeader 0x10 0x00).rxState = .header ∧ packetType? (eventHeader 0x10 0x00).pktType = some .event ∧
    (eventHeader 0x10 0x00).hdrCursor.toNat + 1 = PacketType.event.hdrLen ∧
    (⟨0x10, 0x00, 0, 0⟩ : HeaderBuffer).bytes =
      (eventHeader 0x10 0x00).hdrBuf.bytes.set (eventHeader 0x10 0x00).hdrCursor.toNat 0x00 ∧
    (eventHeader 0x10 0x00).allocAnswer = .ok 7 ∧ PacketType.event.lenField ⟨0x10, 0x00, 0, 0⟩ = 0 := by decide
theorem witness_FailedAllocationEntersError :
    { eventHeader 0x0E 0x04 with allocDraws := [.fail] }.isrPhase ≠ .none ∧
    { eventHeader 0x0E 0x04 with allocDraws := [.fail] }.rxFifo = 0x04 :: [] ∧
    { eventHeader 0x0E 0x04 with allocDraws := [.fail] }.rxState = .header ∧
    packetType? { eventHeader 0x0E 0x04 with allocDraws := [.fail] }.pktType = some .event ∧
    { eventHeader 0x0E 0x04 with allocDraws := [.fail] }.hdrCursor.toNat + 1 = PacketType.event.hdrLen ∧
    (⟨0x0E, 0x04, 0, 0⟩ : HeaderBuffer).bytes =
      { eventHeader 0x0E 0x04 with allocDraws := [.fail] }.hdrBuf.bytes.set 1 0x04 ∧
    { eventHeader 0x0E 0x04 with allocDraws := [.fail] }.allocAnswer = .fail := by decide
theorem witness_BadTypeReturnsToIdle :
    { draining [0x55] with rxState := .header, pktType := 0x03 }.isrPhase ≠ .none ∧
    { draining [0x55] with rxState := .header, pktType := 0x03 }.rxFifo = 0x55 :: [] ∧
    { draining [0x55] with rxState := .header, pktType := 0x03 }.rxState = .header ∧
    validType { draining [0x55] with rxState := .header, pktType := 0x03 }.pktType = false := by decide
/-- `countdown = 2`, the smallest of a byte that is not the last. -/
theorem witness_PayloadByteIsAppended :
    commandData.isrPhase ≠ .none ∧ commandData.rxFifo = 0xAA :: [0xBB] ∧ commandData.rxState = .data ∧
    commandData.pktBuf = some 7 ∧ 1 < commandData.countdown.toNat ∧ Memory.size? commandData.mem 7 = some 5 ∧
    commandData.wrCursor.toNat < (5 : BitVec 17).toNat := by decide
theorem witness_LastPayloadByteDeliversThePacket :
    vendorData.isrPhase ≠ .none ∧ vendorData.rxFifo = 0x12 :: [0x04] ∧ vendorData.rxState = .data ∧
    vendorData.pktBuf = some 7 ∧ vendorData.countdown = 1 ∧ Memory.size? vendorData.mem 7 = some 6 ∧
    vendorData.wrCursor.toNat < (6 : BitVec 17).toNat ∧ vendorData.pktSize.toNat = vendorData.wrCursor.toNat + 1 ∧
    Memory.readList vendorData.mem 7 0 vendorData.wrCursor.toNat = some [0x0E, 0x04, 0x01, 0x54, 0xFD] := by decide
/-- The first two clauses. -/
theorem witness_ErrorIsLeftOnlyByReset :
    { draining [0x04] with rxState := .error }.isrPhase ≠ .none ∧
    { draining [0x04] with rxState := .error }.rxFifo = 0x04 :: [] ∧
    { draining [0x04] with rxState := .error }.rxState = .error ∧
    ∃ t, exec .hostwakeExit { draining [0x04] with rxState := .error } = .next t :=
  ⟨by decide, by decide, by decide, _, rfl⟩

/-- A vendor Command-Complete of length 4, the smallest, in the middle of its step. -/
def vendorHeld : State :=
  { draining [] with
    rxState := .complete, pktType := 0x04, pktBuf := some 7, pktSize := 6
    mem := [⟨7, 6, [(0, 0x0E), (1, 0x04), (2, 0x01), (3, 0x54), (4, 0xFD), (5, 0x00)]⟩] }

/-- The Command-Complete of length 3 of V32, in the middle of its step. -/
def plainHeld : State :=
  { draining [] with
    rxState := .complete, pktType := 0x04, pktBuf := some 7, pktSize := 5
    mem := [⟨7, 5, [(0, 0x0E), (1, 0x03), (2, 0x01), (3, 0x01), (4, 0xFC)]⟩] }

theorem witness_VendorCommandCompleteIsInjectedThenDelivered :
    vendorHeld.rxState = .complete ∧ vendorHeld.pktBuf = some 7 ∧ vendorHeld.pktType = 0x04 ∧
    Memory.readList vendorHeld.mem 7 0 vendorHeld.pktSize.toNat =
      some (0x0E :: 0x04 :: 0x01 :: 0x54 :: 0xFD :: 0x00 :: []) ∧
    4 ≤ (0x04 : Byte).toNat ∧ (0xFD : Byte).extractLsb' 2 6 = 0x3F#6 := by decide
/-- A held packet; no buffer. -/
theorem witness_PlainPacketIsDeliveredAlone :
    (plainHeld.rxState = .complete ∧ plainHeld.pktBuf = some 7 ∧
      Memory.readList plainHeld.mem 7 0 plainHeld.pktSize.toNat = some [0x0E, 0x03, 0x01, 0x01, 0xFC] ∧
      isVendorCc plainHeld.pktType [0x0E, 0x03, 0x01, 0x01, 0xFC] = false) ∧
    ({ plainHeld with pktBuf := none }.rxState = .complete ∧ { plainHeld with pktBuf := none }.pktBuf = none) := by decide
/-- An Event that is one, and one of length 3 that is not. -/
theorem witness_VendorCommandCompleteIsRecognisedExactly :
    (([0x0E, 0x04, 0x01, 0x54, 0xFD, 0x00] : List Byte)[1]? = some 0x04 ∧
      ([0x0E, 0x04, 0x01, 0x54, 0xFD, 0x00] : List Byte).length = 2 + (0x04 : Byte).toNat ∧
      isVendorCc 0x04 [0x0E, 0x04, 0x01, 0x54, 0xFD, 0x00] = true) ∧
    (([0x0E, 0x03, 0x01, 0x01, 0xFC] : List Byte)[1]? = some 0x03 ∧
      ([0x0E, 0x03, 0x01, 0x01, 0xFC] : List Byte).length = 2 + (0x03 : Byte).toNat) := by decide
/-- Both clauses; the second at the last type of its row. -/
theorem witness_FrameRowsTakeTheirTypeByte :
    (encodeType .h4Acl = some 0x02 ∧ (draining [0x02]).isrPhase ≠ .none ∧ (draining [0x02]).rxFifo = 0x02 :: [] ∧
      (draining [0x02]).rxState = .idle) ∧
    (encodeType (.h4Invalid80 127) = some 0xFF ∧ validType 0xFF = false ∧
      { draining [0x02] with rxState := .header, pktType := 0xFF }.rxState = .header ∧
      { draining [0x02] with rxState := .header, pktType := 0xFF }.pktType = 0xFF) := by decide
/-- The seven rows; and held packets of both rows of the Complete resolution, with no buffer last. -/
theorem witness_RxByteIsItsSelectedRow :
    [draining [0], { aclHeader 0 0 with hdrCursor := 2 }, aclHeader 0 0,
      { draining [0] with rxState := .header, pktType := 0x03 }, commandData, vendorData,
      { draining [0] with rxState := .error }].map State.rxRow? =
      [some .rxByteIdle, some .rxByteHeaderPartial, some .rxByteHeaderComplete, some .rxByteHeaderBadtype,
        some .rxByteDataMore, some .rxByteDataLast, some .rxByteError] ∧
    (vendorHeld.rxState = .complete ∧ vendorHeld.pktBuf = some 7 ∧
      vendorHeld.packetBytes 7 = some [0x0E, 0x04, 0x01, 0x54, 0xFD, 0x00]) ∧
    (plainHeld.rxState = .complete ∧ { plainHeld with pktBuf := none }.pktBuf = none) := by decide
theorem witness_RxByteIsItsFrameRow :
    commandData.isrPhase ≠ .none ∧ commandData.rxFifo = 0xAA :: [0xBB] ∧ commandData.frameType? 0xAA = some 0x01 ∧
    decodeType 0x01 = some .h4Cmd := by decide
/-- Each clause; the asserts while the bit is set, and the deasserts while it is clear. -/
theorem witness_DeviceWakeIsOneBitWithoutNesting :
    (Instr.rxirqExit ≠ .reset ∧ ∃ t, exec .rxirqExit { sending 1 with isrPhase := .rx } = .next t) ∧
    ({ ready with devWake := true }.isrPhase = .none ∧ { ready with devWake := true }.initState = .ready ∧
      { ready with devWake := true }.txPhase = .idle) ∧
    ((sending 1).isrPhase = .none ∧ (sending 1).rxIrqArmed = true ∧ { sending 1 with rxFifo := [0x04] }.rxFifo ≠ [] ∧
      (sending 1).spurious = true) ∧
    ({ sending 1 with hwPending := true }.isrPhase = .none ∧ { sending 1 with hwPending := true }.hwPending = true) ∧
    { ready with initState := .settling }.initState = .settling ∧
    ({ ready with txPhase := .done }.isrPhase = .none ∧ { ready with txPhase := .done }.txPhase = .done) ∧
    ((draining []).isrPhase = .rx ∧ (draining []).rxFifo = []) ∧
    { draining [] with isrPhase := .hostWake }.isrPhase = .hostWake :=
  ⟨⟨by decide, _, rfl⟩, by decide⟩
/-- Each clause. -/
theorem witness_DisabledOperationsTakeNoStep :
    ready.initState ≠ .settling ∧ ((sending 0).initState = .ready ∧ (sending 0).txPhase ≠ .idle) ∧
    (ready.txPhase ≠ .type ∧ ready.txPhase ≠ .data) ∧ ready.txPhase ≠ .done ∧ State.reset.rxIrqArmed = false ∧
    ready.isrPhase = .none ∧ (draining []).rxFifo = [] ∧ ready.isrPhase ≠ .rx ∧ (draining [0]).rxFifo ≠ [] ∧
    { ready with spuriousDraws := [false] }.spurious = false ∧ ready.hwPending = false ∧
    ready.isrPhase ≠ .hostWake := by decide
theorem witness_NoThreadStepAndNoEntryInsideAHandler :
    (draining []).isrPhase ≠ .none ∧ Instr.writeByte.agent = some .thread := by decide
theorem witness_HandlersLeaveThreadStateAlone :
    Instr.rxirqExit.agent = some .isr ∧ ∃ t, exec .rxirqExit { sending 1 with isrPhase := .rx } = .next t :=
  ⟨by decide, _, rfl⟩
theorem witness_FaultsAreSticky :
    ({ ready with faults := ⟨true, false⟩ }.faults.has .writeBeforeInit = true) ∧
    { ready with faults := ⟨true, false⟩ }.faultFree = false ∧
    ∃ t, exec .reset { ready with faults := ⟨true, false⟩ } = .next t := ⟨by decide, by decide, _, rfl⟩
theorem witness_TraceOnlyGrows : ∃ t, exec .reset { commandData with trace := [.sleepLock] } = .next t := ⟨_, rfl⟩
theorem witness_DeviceWakeChangesAreEvents :
    Instr.hostwakeFall ≠ .reset ∧ ∃ t, exec .hostwakeFall { ready with hwPending := true } = .next t ∧
      t.devWake ≠ { ready with hwPending := true }.devWake := ⟨by decide, _, rfl, by decide⟩
/-- Another operation; and `RX_BYTE` with no handler running. -/
theorem witness_OnlyReceptionChangesTheReassembler :
    (Instr.rxirqExit.format = .opTag ∧ Instr.rxirqExit ≠ .reset ∧ Instr.rxirqExit ≠ .rxByte ∧
      ∃ t, exec .rxirqExit { commandData with rxFifo := [] } = .next t) ∧
    (ready.isrPhase = .none ∧ ∃ t, exec .rxByte ready = .next t) :=
  ⟨⟨by decide, by decide, by decide, _, rfl⟩, by decide, _, rfl⟩

/-- `commandData` in the host-wake handler, in the middle of a write, with another byte behind. -/
def commandDataElsewhere : State :=
  { commandData with
    isrPhase := .hostWake, txPhase := .data, rxFifo := [0xAA], trace := [.sleepLock], devWake := false }

theorem witness_RxByteDependsOnlyOnReassemblerAndByte :
    commandData.isrPhase ≠ .none ∧ commandDataElsewhere.isrPhase ≠ .none ∧ commandData.rxFifo = 0xAA :: [0xBB] ∧
    commandDataElsewhere.rxFifo = 0xAA :: [] ∧ commandData.reassembly = commandDataElsewhere.reassembly ∧
    commandData.allocAnswer = commandDataElsewhere.allocAnswer ∧ ∃ t, exec .rxByte commandData = .next t :=
  ⟨by decide, by decide, by decide, by decide, by decide, by decide, _, rfl⟩
theorem witness_CountersNeverChangeBehaviour :
    Instr.rxByte ≠ .reset ∧ ∃ t, exec .rxByte { draining [4] with rxState := .header, pktType := 0x03 } = .next t :=
  ⟨by decide, _, rfl⟩
/-- `IDLE`, and the operations that write the elements: a type byte and a `WRITE_BEGIN`. -/
theorem witness_NothingDependsOnUnspecifiedResetValues :
    (Instr.rxByte.format = .opTag ∧ (draining [0x04]).rxState = .idle ∧ (draining [0x04]).txPhase = .idle ∧
      ∃ t, exec .rxByte (draining [0x04]) = .next t ∧ t.rxState = .header) ∧
    (ready.txPhase = .idle ∧ ∃ t, exec (.writeBegin 1 0 []) ready = .next t ∧ t.txPhase = .type) :=
  ⟨⟨by decide, by decide, by decide, _, rfl, by decide⟩, by decide, _, rfl, by decide⟩

/-- A state in `DATA`, with a script whose next operation is `RX_BYTE`. -/
def midPacket : State := { commandData with script := [0x21] }

theorem midPacket_reassemblerInv : ReassemblerInv midPacket where
  idle := nofun
  header := nofun
  data := fun _ => ⟨7, .command, by constructor <;> decide⟩
  error := nofun
  notComplete := nofun
  buffers := ⟨nofun, by rintro h ⟨⟩; exact ⟨_, rfl, by decide⟩⟩
  memory := by decide

/-- The second clause of `RxByteIsItsSelectedRow`, and the premise of the step. -/
theorem witness_StepKeepsReassemblerInvariant : ReassemblerInv midPacket ∧ ∃ t, step midPacket = .next t :=
  ⟨midPacket_reassemblerInv, _, rfl⟩

/-- A write at its last byte, with a script whose next operation is `WRITE_BYTE`. -/
def midWrite : State := { sending 2 with hwIrqArmed := Config.deepSleep, script := [0x11] }

theorem midWrite_transportInv : TransportInv midWrite where
  sleepLock := by decide
  unconfigured := nofun
  configured := fun _ => ⟨rfl, rfl, rfl⟩
  handlerArmed := fun hi => absurd rfl hi
  hostWakeArmed := nofun
  edgeArmed := nofun
  fifoArmed := fun _ => rfl
  writeReady := fun _ => rfl
  dataLength := rfl
  typeIndex := nofun
  dataIndex := fun _ => by decide
  doneIndex := nofun
  indexBound := by decide

theorem midWrite_reassemblerInv : ReassemblerInv midWrite where
  idle := fun _ => rfl
  header := nofun
  data := nofun
  error := nofun
  notComplete := nofun
  buffers := ⟨fun _ => rfl, nofun⟩
  memory := rfl

theorem witness_StepKeepsTransportInvariant : TransportInv midWrite ∧ ∃ t, step midWrite = .next t :=
  ⟨midWrite_transportInv, _, rfl⟩
/-- A packet half received, and a write half sent. -/
theorem witness_InvariantStatesNeverFault :
    (ReassemblerInv midPacket) ∧ (ReassemblerInv midWrite ∧ TransportInv midWrite) :=
  ⟨midPacket_reassemblerInv, midWrite_reassemblerInv, midWrite_transportInv⟩
/-- The Command of V3. -/
theorem witness_OneFrameIsDeliveredAsOnePacket :
    (draining [0x01, 0x03, 0x0C, 0x02, 0xAA, 0xBB, 0x04]).isrPhase ≠ .none ∧
    (draining [0x01, 0x03, 0x0C, 0x02, 0xAA, 0xBB, 0x04]).rxState = .idle ∧ packetType? 0x01 = some .command ∧
    ([0xAA, 0xBB] : List Byte).length = (PacketType.command.lenField ⟨0x03, 0x0C, 0x02, 0⟩).toNat ∧
    (draining [0x01, 0x03, 0x0C, 0x02, 0xAA, 0xBB, 0x04]).rxFifo =
      0x01 :: ((⟨0x03, 0x0C, 0x02, 0⟩ : HeaderBuffer).bytes.take PacketType.command.hdrLen ++ [0xAA, 0xBB] ++ [0x04]) ∧
    (draining [0x01, 0x03, 0x0C, 0x02, 0xAA, 0xBB, 0x04]).allocAnswer = .ok 7 := by decide

end Sys2Proof.Tests
end

section
/-! PROOFS. The statements of spec/00_scope.md: which operation a step runs (R5), that the trace only grows (R6), and
that the reassembler is changed by reception alone (R20). Two relations say what an operation can do: `ReceptionStep` for
`RX_BYTE` and its rows, `OutsideStep` for every other operation but `RESET`. -/

namespace Sys2Proof.Machine

variable {s t u : State}

/-! ## Results -/

/-- Every next state that a result gives meets `P`; a fault and a refusal give none. -/
def EachNext (P : State → Prop) (r : Result) : Prop := ∀ t, r = .next t → P t

@[simp] theorem eachNext_next {P : State → Prop} : EachNext P (.next t) ↔ P t :=
  ⟨fun h => h t rfl, fun h _ heq => Host.Outcome.next.inj heq ▸ h⟩

@[simp] theorem eachNext_fault {P : State → Prop} {e : Fault} : EachNext P (.fault e) := fun _ heq => nomatch heq

@[simp] theorem eachNext_refused {P : State → Prop} {e : Refusal} : EachNext P (.refused e) :=
  fun _ heq => nomatch heq

theorem eachNext_andThen {P Q : State → Prop} {r : Result} {f : State → Result} (hr : EachNext P r)
    (hf : ∀ s1, P s1 → EachNext Q (f s1)) : EachNext Q (andThen r f) := by
  intro t heq
  obtain ⟨s1, hs1, ht⟩ := andThen_eq_next.1 heq
  exact hf s1 (hr s1 hs1) t ht

/-- A guarded answer of a case, when its guard holds. -/
theorem eachNext_of_guard {P : State → Prop} {c : Prop} [Decidable c] {r : Result} (hr : EachNext P r) :
    ∀ r' ∈ (if c then some r else none), EachNext P r' := by
  intro r' hr'
  obtain ⟨-, heq⟩ := Option.ite_none_right_eq_some.1 hr'
  exact Option.some.inj heq ▸ hr

/-! ## Which events a step adds -/

/-- The trace has grown at its end, by events that are all the reassembler's (`own = true`) or none of them. -/
def EmitsOnly (own : Bool) (s t : State) : Prop :=
  ∃ es, t.trace = s.trace ++ es ∧ ∀ e ∈ es, e.ofReassembler = own

theorem emitsOnly_of_trace_eq {own : Bool} (ht : t.trace = s.trace) : EmitsOnly own s t :=
  ⟨[], by rw [ht, List.append_nil], by simp⟩

theorem EmitsOnly.trans {own : Bool} (h1 : EmitsOnly own s t) (h2 : EmitsOnly own t u) : EmitsOnly own s u := by
  obtain ⟨es, hes, hall⟩ := h1
  obtain ⟨es', hes', hall'⟩ := h2
  refine ⟨es ++ es', by rw [hes', hes, List.append_assoc], fun e he => ?_⟩
  exact (List.mem_append.1 he).elim (hall e) (hall' e)

/-! ## What reception can do -/

/-- The state with everything masked that reception may write: S1 to S10, the FIFO, the trace, the Packet Buffers and
the draws of `Alloc`. -/
def State.besidesReception (s : State) : State :=
  { s with
    rxState := .idle, pktType := 0, hdrBuf := ⟨0, 0, 0, 0⟩, hdrCursor := 0, countdown := 0, pktBuf := none
    pktSize := 0, wrCursor := 0, badTypeCount := 0, allocFailCount := 0, rxFifo := [], trace := [], mem := []
    allocDraws := [], drawCount := 0 }

/-- What a step of reception leaves unchanged, and that it emits only the reassembler's events. -/
structure ReceptionStep (s t : State) : Prop where
  kept : t.besidesReception = s.besidesReception
  added : EmitsOnly true s t

theorem ReceptionStep.silent (hk : t.besidesReception = s.besidesReception) (ht : t.trace = s.trace) :
    ReceptionStep s t :=
  ⟨hk, emitsOnly_of_trace_eq ht⟩

theorem ReceptionStep.trans (h1 : ReceptionStep s t) (h2 : ReceptionStep t u) : ReceptionStep s u :=
  ⟨h2.kept.trans h1.kept, h1.added.trans h2.added⟩

/-- Two parts of a reception, one after the other. -/
theorem receptionStep_andThen {r : Result} {f : State → Result} (hr : EachNext (ReceptionStep s) r)
    (hf : ∀ s1, EachNext (ReceptionStep s1) (f s1)) : EachNext (ReceptionStep s) (andThen r f) :=
  eachNext_andThen hr fun s1 h1 t ht => h1.trans (hf s1 t ht)

theorem receptionStep_noStep : EachNext (ReceptionStep s) (noStep s) := eachNext_next.2 (.silent rfl rfl)

theorem receptionStep_of_takeRxByte {b : Byte} (htake : s.takeRxByte = some (b, t)) : ReceptionStep s t := by
  obtain ⟨-, rest, -, rfl⟩ := takeRxByte_eq_some.1 htake
  exact .silent rfl rfl

theorem receptionStep_idleByte (b : Byte) (s : State) : EachNext (ReceptionStep s) (.next (idleByte b s)) :=
  eachNext_next.2 (.silent rfl rfl)

theorem receptionStep_badType (s : State) : EachNext (ReceptionStep s) (.next (badType s)) :=
  eachNext_next.2 (.silent rfl rfl)

theorem receptionStep_errorByte (s : State) : EachNext (ReceptionStep s) (.next (errorByte s)) :=
  eachNext_next.2 (.silent rfl rfl)

theorem receptionStep_storeHeaderByte (b : Byte) (s : State) : EachNext (ReceptionStep s) (storeHeaderByte b s) := by
  intro t heq
  obtain ⟨hdr, -, rfl⟩ := storeHeaderByte_eq_next.1 heq
  exact .silent rfl rfl

theorem besidesReception_allocDrawn (s : State) :
    (State.allocDrawn s).besidesReception = s.besidesReception := by
  unfold State.allocDrawn
  split <;> rfl

/-- R105: whatever `Alloc` answers, its event is the only one. -/
theorem receptionStep_headerComplete (p : PacketType) (s : State) :
    EachNext (ReceptionStep s) (headerComplete p s) := by
  have hemits {t : State} (ans : AllocAnswer)
      (ht : t.trace = s.trace ++ [.alloc p.pool (p.bufferSize (p.lenField s.hdrBuf)) ans]) : EmitsOnly true s t :=
    ⟨_, ht, by simp [Event.ofReassembler]⟩
  unfold headerComplete
  split
  next h hans =>
    obtain ⟨m, hgranted, -⟩ := headerGranted_eq (p := p) (allocAnswer_fresh hans)
    rw [hgranted, eachNext_next]
    exact ⟨besidesReception_allocDrawn s, hemits (.ok h) (by simp)⟩
  next => exact eachNext_next.2 ⟨besidesReception_allocDrawn s, hemits .fail (by simp [headerDenied])⟩

theorem receptionStep_headerByte (p : PacketType) (b : Byte) (s : State) :
    EachNext (ReceptionStep s) (headerByte p b s) := by
  refine receptionStep_andThen (receptionStep_storeHeaderByte b s) fun s1 => ?_
  split
  · exact receptionStep_headerComplete p s1
  · exact receptionStep_noStep

theorem receptionStep_dataByte (b : Byte) (s : State) : EachNext (ReceptionStep s) (dataByte b s) := by
  intro t heq
  obtain ⟨h, m, -, -, -, rfl⟩ := dataByte_eq_next.1 heq
  exact .silent rfl rfl

theorem completionEvents_ofReassembler (ty : Byte) (bytes : List Byte) :
    ∀ e ∈ completionEvents ty bytes, e.ofReassembler = true := by
  obtain heq | ⟨v, -, heq⟩ := completionEvents_cases ty bytes <;> simp [heq, Event.ofReassembler]

theorem receptionStep_finishPacket (h : Nat) {es : List Event} (hes : ∀ e ∈ es, e.ofReassembler = true) (s : State) :
    ReceptionStep s (State.finishPacket h es s) :=
  ⟨rfl, es, rfl, hes⟩

theorem receptionStep_complete (s : State) : EachNext (ReceptionStep s) (complete s) := by
  intro t heq
  obtain ⟨-, rfl⟩ | ⟨h, bytes, -, -, rfl⟩ := complete_eq_next.1 heq
  · exact .silent rfl rfl
  · exact receptionStep_finishPacket h (completionEvents_ofReassembler _ _) s

theorem receptionStep_resolveComplete (s : State) : EachNext (ReceptionStep s) (resolveComplete s) := by
  unfold resolveComplete
  split
  · exact receptionStep_complete s
  · exact receptionStep_noStep

theorem receptionStep_rxCase (b : Byte) (s : State) : EachNext (ReceptionStep s) (rxCase b s) := by
  unfold rxCase
  cases s.rxState with
  | idle => exact receptionStep_idleByte b s
  | header =>
    dsimp only
    split
    · exact receptionStep_headerByte _ b s
    · exact receptionStep_badType s
  | data => exact receptionStep_dataByte b s
  | error => exact receptionStep_errorByte s
  | complete => exact eachNext_fault

theorem receptionStep_rxStep (b : Byte) (s : State) : EachNext (ReceptionStep s) (rxStep b s) :=
  receptionStep_andThen (receptionStep_rxCase b s) receptionStep_resolveComplete

theorem receptionStep_rxByte (s : State) : EachNext (ReceptionStep s) (execRxByte s) := by
  unfold execRxByte
  split
  next b s1 htake => exact fun t ht => (receptionStep_of_takeRxByte htake).trans (receptionStep_rxStep b s1 t ht)
  next => exact receptionStep_noStep

/-- A row of `RX_BYTE` is a step of reception when the case it selects is one. -/
theorem receptionStep_rxSelected {case : Byte → State → Option Result}
    (hcase : ∀ b s1, ∀ r ∈ case b s1, EachNext (ReceptionStep s1) r) (s : State) :
    EachNext (ReceptionStep s) (rxSelected case s) := by
  unfold rxSelected
  split
  next b s1 htake =>
    cases hr : case b s1 with
    | none => exact receptionStep_noStep
    | some r => exact fun t ht => (receptionStep_of_takeRxByte htake).trans (hcase b s1 r hr t ht)
  next => exact receptionStep_noStep

theorem receptionStep_rxOfFrame (ty : Byte) (s : State) : EachNext (ReceptionStep s) (rxOfFrame ty s) :=
  receptionStep_rxSelected (fun b s1 => eachNext_of_guard (receptionStep_rxStep b s1)) s

theorem receptionStep_rxByteIdle (s : State) : EachNext (ReceptionStep s) (execRxByteIdle s) :=
  receptionStep_rxSelected (fun b s1 => eachNext_of_guard (receptionStep_idleByte b s1)) s

theorem receptionStep_rxByteHeaderPartial (s : State) : EachNext (ReceptionStep s) (execRxByteHeaderPartial s) := by
  refine receptionStep_rxSelected (fun b s1 => ?_) s
  split
  next => exact eachNext_of_guard (receptionStep_storeHeaderByte b s1)
  next => exact fun _ hr => absurd hr (Option.not_mem_none _)

theorem receptionStep_rxByteHeaderComplete (s : State) : EachNext (ReceptionStep s) (execRxByteHeaderComplete s) := by
  refine receptionStep_rxSelected (fun b s1 => ?_) s
  split
  next p _ =>
    exact eachNext_of_guard <| receptionStep_andThen
      (receptionStep_andThen (receptionStep_storeHeaderByte b s1) (receptionStep_headerComplete p))
      receptionStep_resolveComplete
  next => exact fun _ hr => absurd hr (Option.not_mem_none _)

theorem receptionStep_rxByteHeaderBadtype (s : State) : EachNext (ReceptionStep s) (execRxByteHeaderBadtype s) :=
  receptionStep_rxSelected (fun _ s1 => eachNext_of_guard (receptionStep_badType s1)) s

theorem receptionStep_rxByteDataMore (s : State) : EachNext (ReceptionStep s) (execRxByteDataMore s) :=
  receptionStep_rxSelected (fun b s1 => eachNext_of_guard (receptionStep_dataByte b s1)) s

theorem receptionStep_rxByteDataLast (s : State) : EachNext (ReceptionStep s) (execRxByteDataLast s) :=
  receptionStep_rxSelected (fun b s1 =>
    eachNext_of_guard (receptionStep_andThen (receptionStep_dataByte b s1) receptionStep_complete)) s

theorem receptionStep_rxByteError (s : State) : EachNext (ReceptionStep s) (execRxByteError s) :=
  receptionStep_rxSelected (fun _ s1 => eachNext_of_guard (receptionStep_errorByte s1)) s

theorem receptionStep_completeVendorCc (s : State) : EachNext (ReceptionStep s) (execCompleteVendorCc s) := by
  unfold execCompleteVendorCc
  split
  · split
    · exact receptionStep_noStep
    · split
      · exact eachNext_fault
      · split
        · exact eachNext_next.2 (receptionStep_finishPacket _ (by simp [Event.ofReassembler]) s)
        · exact receptionStep_noStep
  · exact receptionStep_noStep

theorem receptionStep_completePlain (s : State) : EachNext (ReceptionStep s) (execCompletePlain s) := by
  unfold execCompletePlain
  split
  · split
    · exact eachNext_next.2 (.silent rfl rfl)
    · split
      · exact eachNext_fault
      · split
        · exact receptionStep_noStep
        · exact eachNext_next.2 (receptionStep_finishPacket _ (by simp [Event.ofReassembler]) s)
  · exact receptionStep_noStep

/-- `RX_BYTE` and the rows that are parts of it are steps of reception. -/
theorem receptionStep_exec {i : Instr} (hi : i = .rxByte ∨ i.format ≠ .opTag) (s : State) :
    EachNext (ReceptionStep s) (exec i s) := by
  cases i with
  | rxByte => exact receptionStep_rxByte s
  | h4Cmd | h4Acl | h4Evt | h4SyncInvalid | h4Invalid00 | h4Invalid05 | h4Invalid06 | h4Invalid08 | h4Invalid10
  | h4Invalid20 | h4Invalid40 | h4Invalid80 => exact receptionStep_rxOfFrame _ s
  | rxByteIdle => exact receptionStep_rxByteIdle s
  | rxByteHeaderPartial => exact receptionStep_rxByteHeaderPartial s
  | rxByteHeaderComplete => exact receptionStep_rxByteHeaderComplete s
  | rxByteHeaderBadtype => exact receptionStep_rxByteHeaderBadtype s
  | rxByteDataMore => exact receptionStep_rxByteDataMore s
  | rxByteDataLast => exact receptionStep_rxByteDataLast s
  | rxByteError => exact receptionStep_rxByteError s
  | completeVendorCc => exact receptionStep_completeVendorCc s
  | completePlain => exact receptionStep_completePlain s
  | _ => simp [Instr.format] at hi

/-! ## What every other operation but `RESET` can do -/

/-- The reassembler is left as it is, and none of its events is emitted. -/
structure OutsideStep (s t : State) : Prop where
  kept : t.reassembly = s.reassembly
  added : EmitsOnly false s t

theorem OutsideStep.silent (hk : t.reassembly = s.reassembly) (ht : t.trace = s.trace) : OutsideStep s t :=
  ⟨hk, emitsOnly_of_trace_eq ht⟩

theorem OutsideStep.trans (h1 : OutsideStep s t) (h2 : OutsideStep t u) : OutsideStep s u :=
  ⟨h2.kept.trans h1.kept, h1.added.trans h2.added⟩

theorem outsideStep_noStep : EachNext (OutsideStep s) (noStep s) := eachNext_next.2 (.silent rfl rfl)

theorem outsideStep_raiseFault (code : FaultCode) (s : State) : OutsideStep s (State.raiseFault code s) :=
  ⟨rfl, [.fault code], rfl, by simp [Event.ofReassembler]⟩

theorem outsideStep_enterHandler (phase : IsrPhase) (s : State) : OutsideStep s (State.enterHandler phase s) :=
  ⟨rfl, [.devWake true], rfl, by simp [Event.ofReassembler]⟩

theorem outsideStep_leaveHandler (s : State) : OutsideStep s (State.leaveHandler s) :=
  ⟨rfl, [.devWake false], rfl, by simp [Event.ofReassembler]⟩

theorem outsideStep_readyDrawn (s : State) : OutsideStep s s.readyDrawn :=
  .silent (by simp [State.reassembly]) (by simp)

theorem outsideStep_spuriousDrawn (s : State) : OutsideStep s s.spuriousDrawn :=
  .silent (by simp [State.reassembly]) (by simp)

theorem outsideStep_init (s : State) : EachNext (OutsideStep s) (execInit s) := by
  unfold execInit
  split
  · split
    · exact eachNext_next.2 ⟨rfl, [.uartConfig initUartCfg], rfl, by simp [Event.ofReassembler]⟩
    · exact eachNext_next.2 (outsideStep_raiseFault _ s)
  · exact outsideStep_noStep

theorem outsideStep_initSettle (s : State) : EachNext (OutsideStep s) (execInitSettle s) := by
  unfold execInitSettle
  split
  · exact eachNext_next.2 ⟨rfl, [.devWake false], rfl, by simp [Event.ofReassembler]⟩
  · exact outsideStep_noStep

theorem outsideStep_writeBegin (type : Byte) (length : Half) (data : List Byte) (s : State) :
    EachNext (OutsideStep s) (execWriteBegin type length data s) := by
  unfold execWriteBegin
  split
  · split
    · split
      · exact eachNext_next.2 ⟨rfl, [.devWake true], rfl, by simp [Event.ofReassembler]⟩
      · exact outsideStep_noStep
    · exact eachNext_next.2 (outsideStep_raiseFault _ s)
  · exact outsideStep_noStep

theorem outsideStep_transmitByte (s : State) : EachNext (OutsideStep s) (transmitByte s) := by
  unfold transmitByte
  cases s.txPhase with
  | type => exact eachNext_next.2 ⟨rfl, [.txByte s.txType], rfl, by simp [Event.ofReassembler]⟩
  | data =>
    dsimp only
    split
    next b _ => exact eachNext_next.2 ⟨rfl, [.txByte b], rfl, by simp [Event.ofReassembler]⟩
    next => exact eachNext_fault
  | idle | done => exact outsideStep_noStep

theorem outsideStep_writeByte (s : State) : EachNext (OutsideStep s) (execWriteByte s) := by
  unfold execWriteByte
  split
  · split
    · exact fun t ht => (outsideStep_readyDrawn s).trans (outsideStep_transmitByte _ t ht)
    · exact eachNext_next.2 (outsideStep_readyDrawn s)
  · exact outsideStep_noStep

theorem outsideStep_writeEnd (s : State) : EachNext (OutsideStep s) (execWriteEnd s) := by
  unfold execWriteEnd
  split
  · exact eachNext_next.2
      ⟨rfl, [.devWake false, .writeReturn s.txLen], by simp, by simp [Event.ofReassembler]⟩
  · exact outsideStep_noStep

theorem outsideStep_rxirqEnter (s : State) : EachNext (OutsideStep s) (execRxirqEnter s) := by
  unfold execRxirqEnter
  split
  · split
    · exact eachNext_next.2 (outsideStep_enterHandler .rx s)
    · split
      · exact eachNext_next.2 ((outsideStep_spuriousDrawn s).trans (outsideStep_enterHandler .rx _))
      · exact eachNext_next.2 (outsideStep_spuriousDrawn s)
  · exact outsideStep_noStep

theorem outsideStep_rxirqExit (s : State) : EachNext (OutsideStep s) (execRxirqExit s) := by
  unfold execRxirqExit
  split
  · exact eachNext_next.2 (outsideStep_leaveHandler s)
  · exact outsideStep_noStep

theorem outsideStep_hostwakeFall (s : State) : EachNext (OutsideStep s) (execHostwakeFall s) := by
  unfold execHostwakeFall
  split
  · exact eachNext_next.2 ⟨rfl, [.sleepLock, .devWake true], by simp, by simp [Event.ofReassembler]⟩
  · exact outsideStep_noStep

theorem outsideStep_hostwakeExit (s : State) : EachNext (OutsideStep s) (execHostwakeExit s) := by
  unfold execHostwakeExit
  split
  · exact eachNext_next.2 ⟨rfl, [.devWake false, .sleepUnlock], by simp, by simp [Event.ofReassembler]⟩
  · exact outsideStep_noStep

theorem outsideStep_envRxArrive (b : Byte) (s : State) : EachNext (OutsideStep s) (execEnvRxArrive b s) := by
  unfold execEnvRxArrive
  split
  · exact eachNext_next.2 (.silent rfl rfl)
  · exact outsideStep_noStep

theorem outsideStep_envHostwakeEdge (s : State) : EachNext (OutsideStep s) (execEnvHostwakeEdge s) := by
  refine eachNext_next.2 ?_
  split <;> exact .silent rfl rfl

/-- R83: a tag that names no operation gives no next state. -/
theorem eachNext_exec_of_noAgent {i : Instr} (hi : i.agent = none) (P : State → Prop) (s : State) :
    EachNext P (exec i s) := by
  cases i <;> cases hi <;> exact eachNext_refused

/-- No operation but `RESET` and `RX_BYTE` reaches the reassembler. -/
theorem outsideStep_exec {i : Instr} (hop : i.format = .opTag) (hreset : i ≠ .reset) (hrx : i ≠ .rxByte) (s : State) :
    EachNext (OutsideStep s) (exec i s) := by
  by_cases hagent : i.agent = none
  · exact eachNext_exec_of_noAgent hagent _ s
  cases i with
  | init => exact outsideStep_init s
  | initSettle => exact outsideStep_initSettle s
  | terminate => exact outsideStep_noStep
  | writeBegin type length data => exact outsideStep_writeBegin type length data s
  | writeByte => exact outsideStep_writeByte s
  | writeEnd => exact outsideStep_writeEnd s
  | rxirqEnter => exact outsideStep_rxirqEnter s
  | rxirqExit => exact outsideStep_rxirqExit s
  | hostwakeFall => exact outsideStep_hostwakeFall s
  | hostwakeExit => exact outsideStep_hostwakeExit s
  | envRxArrive b => exact outsideStep_envRxArrive b s
  | envHostwakeEdge => exact outsideStep_envHostwakeEdge s
  | _ => simp_all [Instr.format, Instr.agent]

/-- R161: `RX_BYTE` has no step while no handler runs. -/
theorem exec_rxByte_of_noHandler (hphase : s.isrPhase = .none) : exec .rxByte s = .next s := by
  have htake : s.takeRxByte = none := takeRxByte_eq_none.2 (.inl hphase)
  simp only [exec, execRxByte, htake, noStep]

/-! ## The statements -/

/-- Settles O52: the operations other than `RESET` and `RX_BYTE` are outside steps, and `RX_BYTE` with no handler
running leaves the state as it is. -/
theorem onlyReceptionChangesTheReassembler : Obligations.OnlyReceptionChangesTheReassembler := by
  intro i s t hop hreset hstep hwhen
  have houtside : OutsideStep s t := by
    by_cases hrx : i = .rxByte
    · subst hrx
      rw [exec_rxByte_of_noHandler (hwhen.resolve_left (not_not_intro rfl))] at hstep
      obtain rfl := Host.Outcome.next.inj hstep
      exact .silent rfl rfl
    · exact outsideStep_exec hop hreset hrx s t hstep
  obtain ⟨hkept, es, hes, hall⟩ := houtside
  exact ⟨hkept, by rwa [newEvents_of_append hes]⟩

/-- R6: every instruction appends to the trace: `RESET` the `Free` of a held buffer, reception and the other operations
what their relations allow. -/
theorem exec_appends_to_trace {i : Instr} (hstep : exec i s = .next t) : ∃ es, t.trace = s.trace ++ es := by
  by_cases hreset : i = .reset
  · subst hreset
    obtain rfl := Host.Outcome.next.inj hstep
    exact ⟨_, freeHeld_trace s⟩
  by_cases hrx : i = .rxByte ∨ i.format ≠ .opTag
  · obtain ⟨es, hes, -⟩ := (receptionStep_exec hrx s t hstep).added
    exact ⟨es, hes⟩
  · obtain ⟨hne, hop⟩ := not_or.1 hrx
    obtain ⟨es, hes, -⟩ := (outsideStep_exec (not_not.1 hop) hreset hne s t hstep).added
    exact ⟨es, hes⟩

/-- Settles O50: what an instruction appends to the trace is its new events. -/
theorem traceOnlyGrows : Obligations.TraceOnlyGrows := by
  intro i s t hstep
  obtain ⟨es, hes⟩ := exec_appends_to_trace hstep
  rw [newEvents_of_append hes, hes]

/-- Settles O5: `fetch` reads the decoded operation and moves the script past it. -/
theorem stepRunsTheDecodedOperation : Obligations.StepRunsTheDecodedOperation := by
  intro s i rest hdecode
  have hfetch : fetch s = .ok (i, { s with script := rest }) := fetch_eq_ok.2 ⟨rest, hdecode, rfl⟩
  simp only [step, hfetch]

end Sys2Proof.Machine
end

section
/-! PROOFS. What an operation other than `RESET` and `RX_BYTE` can do, said once: `Effect` has a constructor for every
branch of these operations that gives a next state. With it, that a step runs a well-formed operation of R83. -/

namespace Sys2Proof

theorem oneByte_wf {j : Instr} (hj : j.format = .opTag ∧ j.wf = true) {bytes rest : List Byte} {i : Instr}
    (hp : oneByte j bytes = .ok (i, rest)) : i.format = .opTag ∧ i.wf = true := by
  obtain ⟨rfl, -⟩ := Prod.mk.inj (Except.ok.inj hp)
  exact hj

/-- R155: the data of a `WRITE_BEGIN` that is read has the length it announces. -/
theorem parseWriteBegin_wf {bytes rest : List Byte} {i : Instr} (hp : parseWriteBegin bytes = .ok (i, rest)) :
    i.format = .opTag ∧ i.wf = true := by
  obtain ⟨ty, len, data, rfl, hlen, -⟩ := parseWriteBegin_eq_ok.1 hp
  exact ⟨rfl, by simpa [Instr.wf] using hlen⟩

theorem parseRxArrive_wf {bytes rest : List Byte} {i : Instr} (hp : parseRxArrive bytes = .ok (i, rest)) :
    i.format = .opTag ∧ i.wf = true := by
  obtain ⟨b, rfl, -⟩ := parseRxArrive_eq_ok.1 hp
  exact ⟨rfl, rfl⟩

theorem parse_wf {row : TagRow} (hrow : row ∈ opTagRows) {t : Byte} {bytes rest : List Byte} {i : Instr}
    (hp : row.parse t bytes = .ok (i, rest)) : i.format = .opTag ∧ i.wf = true := by
  simp only [opTagRows, operationRows, unusedTagRows, List.cons_append, List.nil_append, List.mem_cons,
    List.not_mem_nil, or_false] at hrow
  rcases hrow with rfl | rfl | rfl | rfl | rfl | rfl | rfl | rfl | rfl | rfl | rfl | rfl | rfl | rfl | rfl | rfl |
    rfl | rfl | rfl | rfl | rfl | rfl | rfl | rfl | rfl | rfl | rfl | rfl | rfl | rfl | rfl <;>
    first
    | exact oneByte_wf ⟨rfl, rfl⟩ hp
    | exact parseRxArrive_wf hp
    | exact parseWriteBegin_wf hp

/-- The decoder of a script reads well-formed operations, and no row of another format. -/
theorem decode_wf {bytes rest : List Byte} {i : Instr} (hd : decode bytes = .ok (i, rest)) :
    i.format = .opTag ∧ i.wf = true := by
  cases bytes with
  | nil => cases hd
  | cons t tl =>
    simp only [decode] at hd
    split at hd
    next row hrow => exact parse_wf (List.mem_of_find?_eq_some hrow) hd
    next => cases hd

end Sys2Proof

namespace Sys2Proof.Machine

variable {s t : State}

/-- A step idles on an empty script, refuses, or runs a well-formed operation with the script moved past it. -/
theorem step_cases (s : State) :
    step s = .next s ∨ (∃ r, step s = .refused r) ∨
    ∃ i rest, i.format = .opTag ∧ i.wf = true ∧ step s = exec i { s with script := rest } := by
  unfold step
  split
  next i s1 hfetch =>
    obtain ⟨rest, hdecode, rfl⟩ := fetch_eq_ok.1 hfetch
    obtain ⟨hop, hwf⟩ := decode_wf hdecode
    exact .inr (.inr ⟨i, rest, hop, hwf, rfl⟩)
  next => exact .inl rfl
  next r _ _ => exact .inr (.inl ⟨_, rfl⟩)

/-! ## The effects -/

/-- `Effect i s t`: the operation `i`, neither `RESET` nor `RX_BYTE`, takes the state `s` to `t`. -/
inductive Effect : Instr → State → State → Prop
  /-- The operation is not enabled, or is `TERMINATE` (log 2, R153). -/
  | noStep (i : Instr) (s : State) : Effect i s s
  /-- R150. -/
  | initialised {s : State} (hphase : s.isrPhase = .none) (hinit : s.initState = .uninit) :
      Effect .init s s.initialised
  /-- R152. -/
  | initTwice {s : State} (hphase : s.isrPhase = .none) (hinit : s.initState ≠ .uninit) :
      Effect .init s (s.raiseFault .initTwice)
  /-- R151. -/
  | settled {s : State} (hphase : s.isrPhase = .none) (hinit : s.initState = .settling) :
      Effect .initSettle s { s.setDevWake false with initState := .ready }
  /-- R155. -/
  | writeBegun {s : State} (ty : Byte) (len : Half) (data : List Byte) (hphase : s.isrPhase = .none)
      (hinit : s.initState = .ready) (htx : s.txPhase = .idle) :
      Effect (.writeBegin ty len data) s (s.writeBegun ty len data)
  /-- R154. -/
  | writeBeforeInit {s : State} (ty : Byte) (len : Half) (data : List Byte) (hphase : s.isrPhase = .none)
      (hinit : s.initState ≠ .ready) : Effect (.writeBegin ty len data) s (s.raiseFault .writeBeforeInit)
  /-- R158. -/
  | uartBusy (s : State) : Effect .writeByte s s.readyDrawn
  /-- R156 for the type byte. -/
  | typeSent {s : State} (hphase : s.isrPhase = .none) (htx : s.txPhase = .type) :
      Effect .writeByte s
        { s.readyDrawn.emit (.txByte s.txType) with txPhase := if s.txLen = 0 then .done else .data }
  /-- R156 for a byte of the data. -/
  | dataSent {s : State} (b : Byte) (hphase : s.isrPhase = .none) (htx : s.txPhase = .data)
      (hbyte : s.txData[s.txIdx.toNat]? = some b) :
      Effect .writeByte s
        { s.readyDrawn.emit (.txByte b) with
          txIdx := s.txIdx + 1, txPhase := if s.txIdx + 1 = s.txLen then .done else .data }
  /-- R157. -/
  | writeEnded {s : State} (hphase : s.isrPhase = .none) (htx : s.txPhase = .done) :
      Effect .writeEnd s { (s.setDevWake false).emit (.writeReturn s.txLen) with txPhase := .idle }
  /-- R160. -/
  | rxEntered {s : State} (hphase : s.isrPhase = .none) (harmed : s.rxIrqArmed = true) :
      Effect .rxirqEnter s (s.enterHandler .rx)
  /-- R163: the entry is drawn. -/
  | rxEnteredSpuriously {s : State} (hphase : s.isrPhase = .none) (harmed : s.rxIrqArmed = true) :
      Effect .rxirqEnter s (s.spuriousDrawn.enterHandler .rx)
  /-- R163: no entry is drawn. -/
  | notEntered (s : State) : Effect .rxirqEnter s s.spuriousDrawn
  /-- R162. -/
  | rxExited {s : State} (hphase : s.isrPhase = .rx) : Effect .rxirqExit s s.leaveHandler
  /-- R164. -/
  | hostWakeEntered {s : State} (hphase : s.isrPhase = .none) (hpending : s.hwPending = true) :
      Effect .hostwakeFall s (State.enterHandler .hostWake (State.takeSleepLock { s with hwPending := false }))
  /-- R166. -/
  | hostWakeExited {s : State} (hphase : s.isrPhase = .hostWake) : Effect .hostwakeExit s s.leaveHandler.dropSleepLock
  /-- R167. -/
  | byteArrived {s : State} (b : Byte) (harmed : s.rxIrqArmed = true) :
      Effect (.envRxArrive b) s { s with rxFifo := s.rxFifo ++ [b] }
  /-- R165. -/
  | edgeSeen {s : State} (harmed : s.hwIrqArmed = true) : Effect .envHostwakeEdge s { s with hwPending := true }

@[simp] theorem threadMayStep_iff : s.threadMayStep = true ↔ s.isrPhase = .none := by simp [State.threadMayStep]
@[simp] theorem noHandler_iff : s.noHandler = true ↔ s.isrPhase = .none := by simp [State.noHandler]
@[simp] theorem sending_iff : s.sending = true ↔ s.txPhase = .type ∨ s.txPhase = .data := by simp [State.sending]

theorem effect_noStep {i : Instr} : EachNext (Effect i s) (noStep s) := eachNext_next.2 (.noStep i s)

theorem effect_init (s : State) : EachNext (Effect .init s) (execInit s) := by
  unfold execInit
  split
  next hphase =>
    rw [threadMayStep_iff] at hphase
    split
    next hinit => exact eachNext_next.2 (.initialised hphase hinit)
    next hinit => exact eachNext_next.2 (.initTwice hphase hinit)
  next => exact effect_noStep

theorem effect_initSettle (s : State) : EachNext (Effect .initSettle s) (execInitSettle s) := by
  unfold execInitSettle
  split
  next hen => exact eachNext_next.2 (.settled (threadMayStep_iff.1 hen.1) hen.2)
  next => exact effect_noStep

theorem effect_writeBegin (ty : Byte) (len : Half) (data : List Byte) (s : State) :
    EachNext (Effect (.writeBegin ty len data) s) (execWriteBegin ty len data s) := by
  unfold execWriteBegin
  split
  next hphase =>
    rw [threadMayStep_iff] at hphase
    split
    next hinit =>
      split
      next htx => exact eachNext_next.2 (.writeBegun ty len data hphase hinit htx)
      next => exact effect_noStep
    next hinit => exact eachNext_next.2 (.writeBeforeInit ty len data hphase hinit)
  next => exact effect_noStep

/-- R156: the byte goes out after the answer of the UART was drawn. -/
theorem effect_transmitByte (hphase : s.isrPhase = .none) :
    EachNext (Effect .writeByte s) (transmitByte s.readyDrawn) := by
  unfold transmitByte
  simp only [readyDrawn_txPhase, readyDrawn_txType, readyDrawn_txLen, readyDrawn_txIdx, readyDrawn_txData]
  cases htx : s.txPhase with
  | type => exact eachNext_next.2 (.typeSent hphase htx)
  | data =>
    dsimp only
    split
    next b hbyte => exact eachNext_next.2 (.dataSent b hphase htx hbyte)
    next => exact eachNext_fault
  | idle | done => exact eachNext_next.2 (.uartBusy s)

theorem effect_writeByte (s : State) : EachNext (Effect .writeByte s) (execWriteByte s) := by
  unfold execWriteByte
  split
  next hen =>
    split
    · exact effect_transmitByte (threadMayStep_iff.1 hen.1)
    · exact eachNext_next.2 (.uartBusy s)
  next => exact effect_noStep

theorem effect_writeEnd (s : State) : EachNext (Effect .writeEnd s) (execWriteEnd s) := by
  unfold execWriteEnd
  split
  next hen => exact eachNext_next.2 (.writeEnded (threadMayStep_iff.1 hen.1) hen.2)
  next => exact effect_noStep

theorem effect_rxirqEnter (s : State) : EachNext (Effect .rxirqEnter s) (execRxirqEnter s) := by
  unfold execRxirqEnter
  split
  next hen =>
    have hphase := noHandler_iff.1 hen.1
    split
    · exact eachNext_next.2 (.rxEntered hphase hen.2)
    · split
      · exact eachNext_next.2 (.rxEnteredSpuriously hphase hen.2)
      · exact eachNext_next.2 (.notEntered s)
  next => exact effect_noStep

theorem effect_rxirqExit (s : State) : EachNext (Effect .rxirqExit s) (execRxirqExit s) := by
  unfold execRxirqExit
  split
  next hen => exact eachNext_next.2 (.rxExited hen.1)
  next => exact effect_noStep

theorem effect_hostwakeFall (s : State) : EachNext (Effect .hostwakeFall s) (execHostwakeFall s) := by
  unfold execHostwakeFall
  split
  next hen => exact eachNext_next.2 (.hostWakeEntered (noHandler_iff.1 hen.1) hen.2)
  next => exact effect_noStep

theorem effect_hostwakeExit (s : State) : EachNext (Effect .hostwakeExit s) (execHostwakeExit s) := by
  unfold execHostwakeExit
  split
  next hen => exact eachNext_next.2 (.hostWakeExited hen.1)
  next => exact effect_noStep

theorem effect_envRxArrive (b : Byte) (s : State) : EachNext (Effect (.envRxArrive b) s) (execEnvRxArrive b s) := by
  unfold execEnvRxArrive
  split
  next harmed => exact eachNext_next.2 (.byteArrived b harmed)
  next => exact effect_noStep

theorem effect_envHostwakeEdge (s : State) : EachNext (Effect .envHostwakeEdge s) (execEnvHostwakeEdge s) := by
  refine eachNext_next.2 ?_
  split
  next harmed => exact .edgeSeen harmed
  next => exact .noStep _ s

/-- Every next state of an operation other than `RESET` and `RX_BYTE` is one of its effects. -/
theorem effect_exec {i : Instr} (hop : i.format = .opTag) (hreset : i ≠ .reset) (hrx : i ≠ .rxByte) (s : State) :
    EachNext (Effect i s) (exec i s) := by
  by_cases hagent : i.agent = none
  · exact eachNext_exec_of_noAgent hagent _ s
  cases i with
  | init => exact effect_init s
  | initSettle => exact effect_initSettle s
  | terminate => exact effect_noStep
  | writeBegin ty len data => exact effect_writeBegin ty len data s
  | writeByte => exact effect_writeByte s
  | writeEnd => exact effect_writeEnd s
  | rxirqEnter => exact effect_rxirqEnter s
  | rxirqExit => exact effect_rxirqExit s
  | hostwakeFall => exact effect_hostwakeFall s
  | hostwakeExit => exact effect_hostwakeExit s
  | envRxArrive b => exact effect_envRxArrive b s
  | envHostwakeEdge => exact effect_envHostwakeEdge s
  | _ => simp_all [Instr.format, Instr.agent]

/-- What can be said of a next state, by the kind of the instruction: `RESET`, a step of reception, or an effect. -/
theorem exec_next_cases {i : Instr} (hstep : exec i s = .next t) :
    (i = .reset ∧ t = s.freeHeld.resetElements) ∨ ((i = .rxByte ∨ i.format ≠ .opTag) ∧ ReceptionStep s t) ∨
    Effect i s t := by
  by_cases hrx : i = .rxByte ∨ i.format ≠ .opTag
  · exact .inr (.inl ⟨hrx, receptionStep_exec hrx s t hstep⟩)
  by_cases hreset : i = .reset
  · subst hreset
    exact .inl ⟨rfl, (Host.Outcome.next.inj hstep).symm⟩
  · obtain ⟨hne, hop⟩ := not_or.1 hrx
    exact .inr (.inr (effect_exec (not_not.1 hop) hreset hne s t hstep))

end Sys2Proof.Machine
end

section
/-! PROOFS. The invariant of the reassembler (R27, R28). `RX_BYTE` always goes on from a state that meets it: the case
that `rx_step` selects leaves either a state that meets it again or a whole packet, which the Complete resolution then
hands over. -/

namespace Sys2Proof.Machine

variable {s t : State}

/-! ## Which states meet the invariant -/

/-- The invariant is about S1 to S10 and E3 alone. -/
theorem reassemblerInv_of_reassembly_eq (hinv : ReassemblerInv s) (heq : t.reassembly = s.reassembly) :
    ReassemblerInv t := by
  simp only [State.reassembly, Reassembly.mk.injEq] at heq
  obtain ⟨hstate, htype, hhdr, hcursor, hcount, hbuf, hsize, hwr, -, -, hmem⟩ := heq
  obtain ⟨hidle, hheader, hdata, herror, hnot, ⟨hnone, hone⟩, hwf⟩ := hinv
  have hok : t.headerCursorOk ↔ s.headerCursorOk := by simp only [State.headerCursorOk, htype, hcursor]
  refine ⟨?_, ?_, ?_, ?_, ?_, ⟨?_, ?_⟩, ?_⟩
  · rwa [hstate, hbuf]
  · rwa [hstate, hbuf, hok]
  · rw [hstate]
    intro h
    obtain ⟨h, p, hd⟩ := hdata h
    refine ⟨h, p, ?_⟩
    constructor <;> simp only [hbuf, htype, hsize, hhdr, hwr, hmem, hcount]
    exacts [hd.held, hd.typed, hd.size, hd.headerIn, hd.headerCopied, hd.remaining, hd.balance]
  · rwa [hstate, hbuf]
  · rwa [hstate]
  · rwa [hbuf, hmem]
  · rwa [hbuf, hmem, hsize, hwr]
  · rwa [hmem]

/-- With no buffer held and none owned, what is left is R28 and, in `HEADER`, the bound of `hdr_cursor`. -/
theorem reassemblerInv_of_noBuffer (hbuf : s.pktBuf = none) (hmem : s.mem = [])
    (hstate : s.rxState = .idle ∨ (s.rxState = .header ∧ s.headerCursorOk) ∨ s.rxState = .error) :
    ReassemblerInv s where
  idle := fun _ => hbuf
  header := fun h => ⟨hbuf, by simpa [h] using hstate⟩
  data := fun h => by simp [h] at hstate
  error := fun _ => hbuf
  notComplete := fun h => by simp [h] at hstate
  buffers := ⟨fun _ => hmem, fun h heq => by simp [hbuf] at heq⟩
  memory := by rw [hmem]; rfl

theorem reassemblerInv_of_data {h : Nat} {p : PacketType} (hstate : s.rxState = .data) (hdata : DataInv s h p)
    (hbuf : BufferInv s) (hwf : Memory.wf s.mem = true) : ReassemblerInv s where
  idle := by simp [hstate]
  header := by simp [hstate]
  data := fun _ => ⟨h, p, hdata⟩
  error := by simp [hstate]
  notComplete := by simp [hstate]
  buffers := hbuf
  memory := hwf

theorem ReassemblerInv.noBuffer (hinv : ReassemblerInv s) (hstate : s.rxState ≠ .data) :
    s.pktBuf = none ∧ s.mem = [] := by
  have hbuf : s.pktBuf = none := by
    cases hrx : s.rxState with
    | idle => exact hinv.idle hrx
    | header => exact (hinv.header hrx).1
    | data => exact absurd hrx hstate
    | complete => exact absurd hrx hinv.notComplete
    | error => exact hinv.error hrx
  exact ⟨hbuf, hinv.buffers.noneOwned hbuf⟩

theorem reassemblerInv_reset : ReassemblerInv State.reset := reassemblerInv_of_noBuffer rfl rfl (.inl rfl)

/-- A whole packet is held, so that the Complete resolution is due. -/
structure PacketComplete (s : State) : Prop where
  state : s.rxState = .complete
  held : s.pktBuf ≠ none
  buffers : BufferInv s
  filled : s.wrCursor = s.pktSize

/-! ## One owned buffer -/

theorem write_singleton {h off : Nat} {size : BitVec 17} {cells : List Host.Cell} (b : Byte) (hoff : off < size.toNat) :
    Memory.write [⟨h, size, cells⟩] h off b = some [⟨h, size, writeCell cells off b⟩] := by
  simp [Memory.write, hoff]

theorem writeList_singleton {h off : Nat} {size : BitVec 17} {cells : List Host.Cell} {bs : List Byte} {m : Memory}
    (hw : Memory.writeList [⟨h, size, cells⟩] h off bs = some m) : ∃ cells', m = [⟨h, size, cells'⟩] := by
  induction bs generalizing cells off with
  | nil => exact ⟨cells, (Option.some.inj hw).symm⟩
  | cons b bs ih =>
    simp only [Memory.writeList, Memory.write, if_true] at hw
    by_cases hoff : off < size.toNat
    · rw [if_pos hoff] at hw
      exact ih hw
    · simp [hoff] at hw

@[simp] theorem read_singleton (h off : Nat) (size : BitVec 17) (cells : List Host.Cell) :
    Memory.read [⟨h, size, cells⟩] h off = readCell cells off := by simp [Memory.read]

@[simp] theorem release_singleton (h : Nat) (size : BitVec 17) (cells : List Host.Cell) :
    Memory.release [⟨h, size, cells⟩] h = [] := by simp [Memory.release]

/-- The next byte of a buffer filled up to `n` is filled by a write there. -/
theorem written_succ {cells : List Host.Cell} {n off : Nat} (b : Byte)
    (hall : ∀ o, o < n → (readCell cells o).isSome = true) (hoff : off < n + 1) :
    (readCell (writeCell cells n b) off).isSome = true := by
  by_cases heq : off = n
  · simp [heq]
  · rw [readCell_writeCell_ne _ _ heq]
    exact hall off (by omega)

/-! ## The header -/

theorem hdrCursor_succ {n : Nat} {c : BitVec 3} (hlt : c.toNat < n) (hn : n ≤ 4) : (c + 1).toNat = c.toNat + 1 := by
  bv_omega

theorem headerCursorOk_of_type {p : PacketType} (htype : packetType? s.pktType = some p) :
    s.headerCursorOk ↔ s.hdrCursor.toNat < p.hdrLen := by simp only [State.headerCursorOk, htype]

/-- A type byte of either kind: the cursor starts at 0 (R100). -/
theorem headerCursorOk_of_zero (hcursor : s.hdrCursor = 0) : s.headerCursorOk := by
  unfold State.headerCursorOk
  split
  next p _ =>
    rw [hcursor]
    exact Nat.lt_of_lt_of_le (by decide) (hdrLen_bounds p).1
  next => exact hcursor

/-- What the case selected by `rx_step` may leave (R112). -/
def MidInv (s : State) : Prop := ReassemblerInv s ∨ PacketComplete s

/-- R106: with a granted buffer the header stands in it, and the payload is due or the packet is whole. -/
theorem headerGranted_inv {p : PacketType} {h : Nat} (htype : packetType? s.pktType = some p) (hmem : s.mem = []) :
    ∃ t, headerGranted p h s = .next t ∧ MidInv t := by
  have hfresh : Memory.size? s.mem h = none := by rw [hmem]; rfl
  obtain ⟨m, heq, hw, -, hread, -, -, hwf⟩ := headerGranted_eq (p := p) hfresh
  rw [hmem] at hw hwf
  obtain ⟨cells, rfl⟩ := writeList_singleton hw
  have hlen := hdrLen_bounds p
  have hcursor : (BitVec.ofNat 17 p.hdrLen).toNat = p.hdrLen := by
    rw [BitVec.toNat_ofNat]
    omega
  have hcopied : Memory.readList [⟨h, p.bufferSize (p.lenField s.hdrBuf), cells⟩] h 0 p.hdrLen =
      some (s.hdrBuf.bytes.take p.hdrLen) :=
    readList_eq_some.2 ⟨hdrBytes_take_length _ p, fun i hi => by rw [Nat.zero_add]; exact hread i hi⟩
  have hwritten (off : Nat) (hoff : off < (BitVec.ofNat 17 p.hdrLen).toNat) : (readCell cells off).isSome = true := by
    rw [hcursor] at hoff
    rw [← read_singleton h off (p.bufferSize (p.lenField s.hdrBuf)) cells, hread off hoff,
      List.getElem?_eq_getElem (by rwa [hdrBytes_take_length])]
    rfl
  refine ⟨_, heq, ?_⟩
  by_cases hzero : p.lenField s.hdrBuf = 0
  · refine .inr ⟨by simp [hzero], nofun, ⟨nofun, ?_⟩, ?_⟩
    · rintro _ ⟨⟩
      exact ⟨cells, rfl, hwritten⟩
    · refine BitVec.eq_of_toNat_eq ?_
      dsimp only
      rw [hcursor, bufferSize_toNat, hzero]
      rfl
  · have hremaining : 1 ≤ (p.lenField s.hdrBuf).toNat :=
      Nat.one_le_iff_ne_zero.2 fun h0 => hzero (BitVec.eq_of_toNat_eq h0)
    refine .inl (reassemblerInv_of_data (h := h) (p := p) (if_neg hzero) ?_ ⟨nofun, ?_⟩ (hwf rfl))
    · exact {
        held := rfl
        typed := by simpa using htype
        size := by simp
        headerIn := hcursor.ge
        headerCopied := by simpa using hcopied
        remaining := hremaining
        balance := by rw [hcursor, bufferSize_toNat] }
    · rintro _ ⟨⟩
      exact ⟨cells, rfl, hwritten⟩

/-- R105, R106: `header_complete` goes on, whatever `Alloc` answers. -/
theorem headerComplete_inv {p : PacketType} (htype : packetType? s.pktType = some p) (hbuf : s.pktBuf = none)
    (hmem : s.mem = []) : ∃ t, headerComplete p s = .next t ∧ MidInv t := by
  unfold headerComplete
  split
  next h _ => exact headerGranted_inv htype hmem
  next =>
    exact ⟨_, rfl, .inl (reassemblerInv_of_noBuffer (by simpa [headerDenied] using hbuf)
      (by simpa [headerDenied] using hmem) (.inr (.inr rfl)))⟩

/-- R101, R103: the cursor stays below the length of the header until the header is complete. -/
theorem headerByte_inv {p : PacketType} (b : Byte) (hstate : s.rxState = .header)
    (htype : packetType? s.pktType = some p) (hcursor : s.hdrCursor.toNat < p.hdrLen) (hbuf : s.pktBuf = none)
    (hmem : s.mem = []) : ∃ t, headerByte p b s = .next t ∧ MidInv t := by
  have hlen := hdrLen_bounds p
  obtain ⟨hdr, hwrite⟩ := (hdrBuf_write_isSome (hdr := s.hdrBuf) (b := b)).2 (Nat.lt_of_lt_of_le hcursor hlen.2)
  rw [headerByte, storeHeaderByte_eq_next.2 ⟨hdr, hwrite, rfl⟩, andThen_next]
  split
  next => exact headerComplete_inv htype hbuf hmem
  next hne =>
    refine ⟨_, rfl, .inl (reassemblerInv_of_noBuffer hbuf hmem (.inr (.inl ⟨hstate, ?_⟩)))⟩
    rw [headerCursorOk_of_type (by exact htype)]
    simp only [hdrCursor_succ hcursor hlen.2] at hne ⊢
    omega

/-! ## The payload -/

/-- R110: a byte of the payload is appended, and the last one makes the packet whole. -/
theorem dataByte_inv {h : Nat} {p : PacketType} (b : Byte) (hdata : DataInv s h p) (hbuffers : BufferInv s)
    (hwf : Memory.wf s.mem = true) : ∃ t, dataByte b s = .next t ∧ MidInv t := by
  obtain ⟨hheld, htyped, hsize, hheaderIn, hcopied, hremaining, hbalance⟩ := hdata
  obtain ⟨cells, hmem, hwritten⟩ := hbuffers.oneOwned h hheld
  have hsizeLt := s.pktSize.isLt
  have hcountLt := s.countdown.isLt
  have hcount : s.countdown ≠ 0 := by
    rintro h0
    rw [h0] at hremaining
    exact absurd hremaining (by decide)
  have hwrite : Memory.write s.mem h s.wrCursor.toNat b =
      some [⟨h, s.pktSize, writeCell cells s.wrCursor.toNat b⟩] := by
    rw [hmem]
    exact write_singleton b (by omega)
  have hcursor : (s.wrCursor + 1).toNat = s.wrCursor.toNat + 1 := by bv_omega
  have hdown : (s.countdown - 1).toNat = s.countdown.toNat - 1 := by bv_omega
  have hwritten' (off : Nat) (hoff : off < (s.wrCursor + 1).toNat) :
      (readCell (writeCell cells s.wrCursor.toNat b) off).isSome = true :=
    written_succ b hwritten (hcursor ▸ hoff)
  refine ⟨_, dataByte_eq_next.2 ⟨h, _, hheld, hcount, hwrite, rfl⟩, ?_⟩
  have hbuffers' : BufferInv { s with
      mem := [⟨h, s.pktSize, writeCell cells s.wrCursor.toNat b⟩], wrCursor := s.wrCursor + 1,
      countdown := s.countdown - 1, rxState := if s.countdown - 1 = 0 then .complete else .data } := by
    refine ⟨fun hnone => absurd (hheld.symm.trans hnone) nofun, fun h' hh' => ?_⟩
    obtain rfl := Option.some.inj (hheld.symm.trans hh')
    exact ⟨_, rfl, hwritten'⟩
  by_cases hlast : s.countdown - 1 = 0
  · refine .inr ⟨if_pos hlast, fun hnone => absurd (hheld.symm.trans hnone) nofun, hbuffers', ?_⟩
    refine BitVec.eq_of_toNat_eq ?_
    have hdown0 : s.countdown.toNat - 1 = 0 := by rw [← hdown, hlast]; rfl
    simp only [hcursor]
    omega
  · have hmore : (s.countdown - 1).toNat ≠ 0 := fun h0 => hlast (BitVec.eq_of_toNat_eq h0)
    refine .inl (reassemblerInv_of_data (h := h) (p := p) (if_neg hlast) ?_ hbuffers' (wf_write hwf hwrite))
    obtain ⟨hlength, hread⟩ := readList_eq_some.1 hcopied
    obtain ⟨-, -, hother, -⟩ := write_spec hwrite
    exact {
      held := hheld
      typed := htyped
      size := hsize
      headerIn := by simp only [hcursor]; omega
      headerCopied := readList_eq_some.2 ⟨hlength, fun i hi => by
        rw [← hread i hi]
        exact hother h (0 + i) (by simp; omega)⟩
      remaining := Nat.one_le_iff_ne_zero.2 hmore
      balance := by simp only [hcursor, hdown]; omega }

/-! ## The step -/

/-- R112: the case selected for a byte goes on. -/
theorem rxCase_inv (b : Byte) (hinv : ReassemblerInv s) : ∃ t, rxCase b s = .next t ∧ MidInv t := by
  unfold rxCase
  cases hstate : s.rxState with
  | idle =>
    obtain ⟨hbuf, hmem⟩ := hinv.noBuffer (by simp [hstate])
    exact ⟨_, rfl, .inl (reassemblerInv_of_noBuffer hbuf hmem (.inr (.inl ⟨rfl, headerCursorOk_of_zero rfl⟩)))⟩
  | header =>
    obtain ⟨hbuf, hmem⟩ := hinv.noBuffer (by simp [hstate])
    have hcursor := (hinv.header hstate).2
    dsimp only
    split
    next p htype => exact headerByte_inv b hstate htype ((headerCursorOk_of_type htype).1 hcursor) hbuf hmem
    next => exact ⟨_, rfl, .inl (reassemblerInv_of_noBuffer hbuf hmem (.inl rfl))⟩
  | data =>
    obtain ⟨h, p, hdata⟩ := hinv.data hstate
    exact dataByte_inv b hdata hinv.buffers hinv.memory
  | error =>
    obtain ⟨hbuf, hmem⟩ := hinv.noBuffer (by simp [hstate])
    exact ⟨_, rfl, .inl (reassemblerInv_of_noBuffer hbuf hmem (.inr (.inr rfl)))⟩
  | complete => exact absurd hstate hinv.notComplete

/-- R130, R134: a whole packet can be read, and handing it over leaves no buffer. -/
theorem complete_inv (hpacket : PacketComplete s) : ∃ t, complete s = .next t ∧ ReassemblerInv t := by
  obtain ⟨-, hheld, hbuffers, hfilled⟩ := hpacket
  obtain ⟨h, hh⟩ := Option.ne_none_iff_exists'.1 hheld
  obtain ⟨cells, hmem, hwritten⟩ := hbuffers.oneOwned h hh
  obtain ⟨bytes, hbytes⟩ : ∃ bytes, s.packetBytes h = some bytes :=
    readList_isSome fun i hi => by
      rw [hmem, read_singleton]
      exact hwritten _ (by rw [hfilled, Nat.zero_add]; exact hi)
  exact ⟨_, complete_eq_next.2 (.inr ⟨h, bytes, hh, hbytes, rfl⟩),
    reassemblerInv_of_noBuffer rfl (by simp [hmem]) (.inl rfl)⟩

theorem rxStep_inv (b : Byte) (hinv : ReassemblerInv s) : ∃ t, rxStep b s = .next t ∧ ReassemblerInv t := by
  obtain ⟨t, hcase, hinv' | hpacket⟩ := rxCase_inv b hinv
  · exact ⟨t, by rw [rxStep, hcase, andThen_next, resolveComplete_of_ne hinv'.notComplete], hinv'⟩
  · rw [rxStep, hcase, andThen_next, resolveComplete_of_complete hpacket.state]
    exact complete_inv hpacket

/-- R27, R28: `RX_BYTE` goes on from every state that meets the invariant, to a state that meets it. -/
theorem exec_rxByte_inv (hinv : ReassemblerInv s) : ∃ t, exec .rxByte s = .next t ∧ ReassemblerInv t := by
  simp only [exec, execRxByte]
  split
  next b s1 htake =>
    obtain ⟨-, rest, -, rfl⟩ := takeRxByte_eq_some.1 htake
    exact rxStep_inv b (reassemblerInv_of_reassembly_eq hinv rfl)
  next => exact ⟨s, rfl, hinv⟩

/-! ## The statement -/

/-- Every operation keeps the invariant: `RESET` leaves the reassembler as at reset, `RX_BYTE` keeps it, and no other
operation reaches the reassembler. -/
theorem exec_keeps_reassemblerInv {i : Instr} (hop : i.format = .opTag) (hinv : ReassemblerInv s)
    (hstep : exec i s = .next t) : ReassemblerInv t := by
  by_cases hreset : i = .reset
  · subst hreset
    obtain rfl := Host.Outcome.next.inj hstep
    exact reassemblerInv_of_reassembly_eq reassemblerInv_reset rfl
  by_cases hrx : i = .rxByte
  · subst hrx
    obtain ⟨t', ht', hinv'⟩ := exec_rxByte_inv hinv
    obtain rfl := Host.Outcome.next.inj (ht'.symm.trans hstep)
    exact hinv'
  · exact reassemblerInv_of_reassembly_eq hinv (outsideStep_exec hop hreset hrx s t hstep).kept

/-- Settles O57: a step idles or runs an operation, and moving the script is nothing to the reassembler. -/
theorem stepKeepsReassemblerInvariant : Obligations.StepKeepsReassemblerInvariant := by
  intro s t hinv hstep
  obtain hidle | ⟨r, hrefused⟩ | ⟨i, rest, hop, -, hrun⟩ := step_cases s
  · obtain rfl := Host.Outcome.next.inj (hidle.symm.trans hstep)
    exact hinv
  · cases hrefused.symm.trans hstep
  · exact exec_keeps_reassemblerInv (s := { s with script := rest }) hop
      (reassemblerInv_of_reassembly_eq hinv rfl) (hrun.symm.trans hstep)

end Sys2Proof.Machine
end

section
/-! PROOFS. What reception leaves of the FIFO, and the invariant of the transport wrapper (R31, R34, R38, R169). -/

namespace Sys2Proof.Machine

variable {s t : State}

/-- What the invariant of the transport wrapper is about; every other element at its reset value. -/
def State.transportView (s : State) : State :=
  { State.reset with
    sleepLocked := s.sleepLocked, isrPhase := s.isrPhase, initState := s.initState, uartCfg := s.uartCfg
    rxIrqArmed := s.rxIrqArmed, hwIrqArmed := s.hwIrqArmed, hwPending := s.hwPending, rxFifo := s.rxFifo
    txPhase := s.txPhase, txLen := s.txLen, txIdx := s.txIdx, txData := s.txData }

theorem transportInv_transportView : TransportInv s.transportView ↔ TransportInv s :=
  ⟨fun h => { h with }, fun h => { h with }⟩

theorem transportInv_of_view_eq (hinv : TransportInv s) (heq : t.transportView = s.transportView) : TransportInv t := by
  rwa [← transportInv_transportView, heq, transportInv_transportView]

theorem transportInv_readyDrawn (hinv : TransportInv s) : TransportInv s.readyDrawn :=
  transportInv_of_view_eq hinv (by simp [State.transportView])

theorem transportInv_spuriousDrawn (hinv : TransportInv s) : TransportInv s.spuriousDrawn :=
  transportInv_of_view_eq hinv (by simp [State.transportView])

theorem transportInv_reset : TransportInv State.reset where
  sleepLock := by decide
  unconfigured := fun _ => ⟨rfl, rfl, rfl⟩
  configured := fun h => absurd rfl h
  handlerArmed := fun h => absurd rfl h
  hostWakeArmed := nofun
  edgeArmed := nofun
  fifoArmed := fun h => absurd rfl h
  writeReady := fun h => absurd rfl h
  dataLength := rfl
  typeIndex := nofun
  dataIndex := nofun
  doneIndex := nofun
  indexBound := Nat.le_refl _

/-! ## `INIT` and its settling -/

theorem transportInv_initialised (hinv : TransportInv s) (hphase : s.isrPhase = .none) (hinit : s.initState = .uninit) :
    TransportInv s.initialised := by
  obtain ⟨-, -, hunarmed⟩ := hinv.unconfigured hinit
  exact { hinv with
    unconfigured := nofun
    configured := fun _ => ⟨rfl, rfl, by
      simp only [State.initialised, hunarmed]
      cases Config.deepSleep <;> rfl⟩
    handlerArmed := fun _ => rfl
    hostWakeArmed := fun h => nomatch hphase.symm.trans h
    edgeArmed := fun h => nomatch hunarmed.symm.trans (hinv.edgeArmed h)
    fifoArmed := fun _ => rfl
    writeReady := fun h => nomatch hinit.symm.trans (hinv.writeReady h) }

theorem transportInv_settled (hinv : TransportInv s) (hinit : s.initState = .settling) :
    TransportInv { s.setDevWake false with initState := .ready } :=
  { hinv with
    unconfigured := nofun
    configured := fun _ => hinv.configured (by simp [hinit])
    writeReady := fun _ => rfl }

/-! ## A write -/

theorem transportInv_writeBegun (ty : Byte) {len : Half} {data : List Byte} (hinv : TransportInv s)
    (hinit : s.initState = .ready) (hdata : data.length = len.toNat) : TransportInv (s.writeBegun ty len data) :=
  { hinv with
    writeReady := fun _ => hinit
    dataLength := hdata
    typeIndex := fun _ => rfl
    dataIndex := nofun
    doneIndex := nofun
    indexBound := Nat.zero_le _ }

/-- The type byte is out: the data follows, from index 0, unless it is empty. -/
theorem transportInv_typeSent (e : Event) (hinv : TransportInv s) (htx : s.txPhase = .type) :
    TransportInv { s.emit e with txPhase := if s.txLen = 0 then .done else .data } := by
  have hidx := hinv.typeIndex htx
  have hready := hinv.writeReady (by simp [htx])
  by_cases hempty : s.txLen = 0
  · simp only [hempty, if_true]
    exact { hinv with
      writeReady := fun _ => hready
      typeIndex := nofun
      dataIndex := nofun
      doneIndex := fun _ => hidx.trans hempty.symm }
  · simp only [hempty, if_false]
    exact { hinv with
      writeReady := fun _ => hready
      typeIndex := nofun
      dataIndex := fun _ => by
        simp only [emit_txIdx, emit_txLen, hidx]
        exact Nat.pos_of_ne_zero fun h0 => hempty (BitVec.eq_of_toNat_eq h0)
      doneIndex := nofun }

/-- A byte of the data is out: the next one follows, unless it was the last. -/
theorem transportInv_dataSent (e : Event) (hinv : TransportInv s) (htx : s.txPhase = .data) :
    TransportInv { s.emit e with
      txIdx := s.txIdx + 1, txPhase := if s.txIdx + 1 = s.txLen then .done else .data } := by
  have hlt := hinv.dataIndex htx
  have hready := hinv.writeReady (by simp [htx])
  have hidx : (s.txIdx + 1).toNat = s.txIdx.toNat + 1 := by bv_omega
  have hbound : (s.txIdx + 1).toNat ≤ s.txLen.toNat := by omega
  by_cases hlast : s.txIdx + 1 = s.txLen
  · simp only [hlast, if_true]
    exact { hinv with
      writeReady := fun _ => hready
      typeIndex := nofun
      dataIndex := nofun
      doneIndex := fun _ => rfl
      indexBound := Nat.le_refl _ }
  · simp only [hlast, if_false]
    exact { hinv with
      writeReady := fun _ => hready
      typeIndex := nofun
      dataIndex := fun _ => Nat.lt_of_le_of_ne hbound fun heq => hlast (BitVec.eq_of_toNat_eq heq)
      doneIndex := nofun
      indexBound := hbound }

theorem transportInv_writeEnded (e : Event) (hinv : TransportInv s) :
    TransportInv { (s.setDevWake false).emit e with txPhase := .idle } :=
  { hinv with
    writeReady := fun h => absurd rfl h
    typeIndex := nofun
    dataIndex := nofun
    doneIndex := nofun }

/-! ## The handlers -/

theorem transportInv_rxEntered (hinv : TransportInv s) (hphase : s.isrPhase = .none) (harmed : s.rxIrqArmed = true) :
    TransportInv (s.enterHandler .rx) :=
  { hinv with
    sleepLock := hinv.sleepLock.trans (by simp [hphase])
    handlerArmed := fun _ => harmed
    hostWakeArmed := nofun }

theorem transportInv_rxExited (hinv : TransportInv s) (hphase : s.isrPhase = .rx) : TransportInv s.leaveHandler :=
  { hinv with
    sleepLock := hinv.sleepLock.trans (by simp [hphase])
    handlerArmed := fun h => absurd rfl h
    hostWakeArmed := nofun }

/-- R34, R38: an edge is pending only once `INIT` has armed both handlers. -/
theorem TransportInv.rxArmed_of_hwArmed (hinv : TransportInv s) (harmed : s.hwIrqArmed = true) :
    s.rxIrqArmed = true := by
  by_cases hinit : s.initState = .uninit
  · obtain ⟨-, -, hunarmed⟩ := hinv.unconfigured hinit
    cases hunarmed.symm.trans harmed
  · exact (hinv.configured hinit).2.1

theorem transportInv_hostWakeEntered (hinv : TransportInv s) (hpending : s.hwPending = true) :
    TransportInv (State.enterHandler .hostWake (State.takeSleepLock { s with hwPending := false })) := by
  have hentered : TransportInv { s with hwPending := false, sleepLocked := true, isrPhase := .hostWake } :=
    { hinv with
      sleepLock := ⟨fun _ => rfl, fun _ => rfl⟩
      handlerArmed := fun _ => hinv.rxArmed_of_hwArmed (hinv.edgeArmed hpending)
      hostWakeArmed := fun _ => hinv.edgeArmed hpending
      edgeArmed := nofun }
  exact transportInv_of_view_eq hentered (by simp [State.transportView])

theorem transportInv_hostWakeExited (hinv : TransportInv s) : TransportInv s.leaveHandler.dropSleepLock :=
  { hinv with
    sleepLock := ⟨nofun, nofun⟩
    handlerArmed := fun h => absurd rfl h
    hostWakeArmed := nofun }

/-- Every effect keeps the invariant. -/
theorem effect_keeps_transportInv {i : Instr} (hwf : i.wf = true) (heff : Effect i s t) (hinv : TransportInv s) :
    TransportInv t := by
  cases heff with
  | noStep => exact hinv
  | initialised hphase hinit => exact transportInv_initialised hinv hphase hinit
  | initTwice | writeBeforeInit => exact transportInv_of_view_eq hinv rfl
  | settled _ hinit => exact transportInv_settled hinv hinit
  | writeBegun ty len data _ hinit _ =>
    exact transportInv_writeBegun ty hinv hinit (by simpa [Instr.wf] using hwf)
  | uartBusy => exact transportInv_readyDrawn hinv
  | typeSent _ htx =>
    simpa using transportInv_typeSent (.txByte s.txType) (transportInv_readyDrawn hinv) (by simpa using htx)
  | dataSent b _ htx _ =>
    simpa using transportInv_dataSent (.txByte b) (transportInv_readyDrawn hinv) (by simpa using htx)
  | writeEnded => exact transportInv_writeEnded _ hinv
  | rxEntered hphase harmed => exact transportInv_rxEntered hinv hphase harmed
  | rxEnteredSpuriously hphase harmed =>
    exact transportInv_rxEntered (transportInv_spuriousDrawn hinv) (by simpa using hphase) (by simpa using harmed)
  | notEntered => exact transportInv_spuriousDrawn hinv
  | rxExited hphase => exact transportInv_rxExited hinv hphase
  | hostWakeEntered _ hpending => exact transportInv_hostWakeEntered hinv hpending
  | hostWakeExited => exact transportInv_hostWakeExited hinv
  | byteArrived b harmed => exact { hinv with fifoArmed := fun _ => harmed }
  | edgeSeen harmed => exact { hinv with edgeArmed := fun _ => harmed }

end Sys2Proof.Machine
end

section
/-! PROOFS. Noninterference. An operation that neither reads nor writes some elements commutes with every change of
them. Here reception, with a change of what else stands in the FIFO and with counters moved on; so the FIFO is only
shortened by the byte that is taken. -/

namespace Sys2Proof.Machine

variable {s t : State}

/-! ## Operations and updates that commute -/

/-- `F` goes the same way after the update `f`, and the update stands on its next state. -/
def CommutesWith (f : State → State) (F : State → Result) : Prop :=
  ∀ s, F (f s) = andThen (F s) fun t => .next (f t)

/-- The same for a guarded case of `RX_BYTE`: the guard gives the same verdict. -/
def CaseCommutesWith (f : State → State) (case : State → Option Result) : Prop :=
  ∀ s, case (f s) = (case s).map fun r => andThen r fun t => .next (f t)

section
variable {f : State → State} {F G : State → Result}

theorem CommutesWith.next_eq (hF : CommutesWith f F) (hstep : F s = .next t) : F (f s) = .next (f t) := by
  rw [hF s, hstep, andThen_next]

theorem commutesWith_next {g : State → State} (hg : ∀ s, g (f s) = f (g s)) : CommutesWith f fun s => .next (g s) :=
  fun s => congrArg Host.Outcome.next (hg s)

theorem commutesWith_noStep : CommutesWith f noStep := fun _ => rfl

theorem commutesWith_fault (e : Fault) : CommutesWith f fun _ => .fault e := fun _ => rfl

theorem commutesWith_ite {c : State → Prop} [∀ s, Decidable (c s)] (hc : ∀ s, c (f s) ↔ c s)
    (hF : CommutesWith f F) (hG : CommutesWith f G) : CommutesWith f fun s => if c s then F s else G s := by
  intro s
  by_cases h : c s
  · simpa only [if_pos h, if_pos ((hc s).2 h)] using hF s
  · simpa only [if_neg h, if_neg (mt (hc s).1 h)] using hG s

theorem commutesWith_andThen (hF : CommutesWith f F) (hG : CommutesWith f G) :
    CommutesWith f fun s => andThen (F s) G := by
  intro s
  simp only [hF s]
  cases F s with
  | next s1 => exact hG s1
  | fault e => rfl
  | refused e => rfl

theorem caseCommutesWith_guard {c : State → Prop} [∀ s, Decidable (c s)] (hc : ∀ s, c (f s) ↔ c s)
    (hF : CommutesWith f F) : CaseCommutesWith f fun s => if c s then some (F s) else none := by
  intro s
  by_cases h : c s
  · simpa only [if_pos h, if_pos ((hc s).2 h), Option.map_some] using congrArg some (hF s)
  · simp only [if_neg h, if_neg (mt (hc s).1 h), Option.map_none]

end

/-! ## Reception, the FIFO and the counters -/

/-- The state with another FIFO and with counters moved on. -/
def State.disturbed (fifo : List Byte → List Byte) (bad fail : BitVec 32) (s : State) : State :=
  { s with
    rxFifo := fifo s.rxFifo, badTypeCount := s.badTypeCount + bad, allocFailCount := s.allocFailCount + fail }

section
variable (fifo : List Byte → List Byte) (bad fail : BitVec 32)

/-- R29: counting up commutes with a distance between two counts. -/
theorem countUp_add (c d : BitVec 32) : countUp (c + d) = countUp c + d := add_right_comm c d 1

theorem allocDrawn_disturbed (s : State) :
    (s.disturbed fifo bad fail).allocDrawn = s.allocDrawn.disturbed fifo bad fail := by
  unfold State.allocDrawn State.disturbed
  dsimp only
  split <;> rfl

theorem commutes_storeHeaderByte (b : Byte) :
    CommutesWith (State.disturbed fifo bad fail) (storeHeaderByte b) := by
  intro s
  unfold storeHeaderByte State.disturbed
  dsimp only
  split <;> rfl

theorem commutes_headerGranted (p : PacketType) (h : Nat) :
    CommutesWith (State.disturbed fifo bad fail) (headerGranted p h) := by
  intro s
  unfold headerGranted
  rw [allocDrawn_disturbed]
  dsimp only [State.disturbed]
  split <;> rfl

theorem commutes_headerDenied (p : PacketType) :
    CommutesWith (State.disturbed fifo bad fail) fun s => .next (headerDenied p s) :=
  commutesWith_next fun s => by
    unfold headerDenied
    rw [allocDrawn_disturbed]
    simp only [State.disturbed, countUp_add, State.emit, allocDrawn_allocFailCount, allocDrawn_badTypeCount]

theorem commutes_headerComplete (p : PacketType) :
    CommutesWith (State.disturbed fifo bad fail) (headerComplete p) := by
  intro s
  have hanswer : (s.disturbed fifo bad fail).allocAnswer = s.allocAnswer := rfl
  unfold headerComplete
  rw [hanswer]
  cases s.allocAnswer with
  | ok h => exact commutes_headerGranted fifo bad fail p h s
  | fail => exact commutes_headerDenied fifo bad fail p s

theorem commutes_headerByte (p : PacketType) (b : Byte) :
    CommutesWith (State.disturbed fifo bad fail) (headerByte p b) :=
  commutesWith_andThen (commutes_storeHeaderByte fifo bad fail b)
    (commutesWith_ite (fun _ => Iff.rfl) (commutes_headerComplete fifo bad fail p) (commutesWith_next fun _ => rfl))

theorem commutes_idleByte (b : Byte) : CommutesWith (State.disturbed fifo bad fail) fun s => .next (idleByte b s) :=
  commutesWith_next fun _ => rfl

theorem commutes_badType : CommutesWith (State.disturbed fifo bad fail) fun s => .next (badType s) :=
  commutesWith_next fun s => by simp only [badType, State.disturbed, countUp_add]

theorem commutes_errorByte : CommutesWith (State.disturbed fifo bad fail) fun s => .next (errorByte s) :=
  commutesWith_next fun _ => rfl

theorem commutes_dataByte (b : Byte) : CommutesWith (State.disturbed fifo bad fail) (dataByte b) := by
  intro s
  have hcount : (s.disturbed fifo bad fail).countdown = s.countdown := rfl
  unfold dataByte
  by_cases hzero : s.countdown = 0
  · simp only [hcount, if_pos hzero]
    dsimp only [State.disturbed]
    split <;> rfl
  · simp only [hcount, if_neg hzero]
    dsimp only [State.disturbed]
    split
    · rfl
    · split <;> rfl

theorem commutes_complete : CommutesWith (State.disturbed fifo bad fail) complete := by
  intro s
  unfold complete State.packetBytes
  dsimp only [State.disturbed]
  split
  · rfl
  · split <;> rfl

theorem commutes_resolveComplete : CommutesWith (State.disturbed fifo bad fail) resolveComplete :=
  commutesWith_ite (fun _ => Iff.rfl) (commutes_complete fifo bad fail) (commutesWith_next fun _ => rfl)

theorem commutes_rxCase (b : Byte) : CommutesWith (State.disturbed fifo bad fail) (rxCase b) := by
  intro s
  have hstate : (s.disturbed fifo bad fail).rxState = s.rxState := rfl
  have htype : (s.disturbed fifo bad fail).pktType = s.pktType := rfl
  unfold rxCase
  rw [hstate, htype]
  cases s.rxState with
  | idle => exact commutes_idleByte fifo bad fail b s
  | header =>
    dsimp only
    split
    · exact commutes_headerByte fifo bad fail _ b s
    · exact commutes_badType fifo bad fail s
  | data => exact commutes_dataByte fifo bad fail b s
  | error => exact commutes_errorByte fifo bad fail s
  | complete => rfl

theorem commutes_rxStep (b : Byte) : CommutesWith (State.disturbed fifo bad fail) (rxStep b) :=
  commutesWith_andThen (commutes_rxCase fifo bad fail b) (commutes_resolveComplete fifo bad fail)

theorem commutes_completeVendorCc : CommutesWith (State.disturbed fifo bad fail) execCompleteVendorCc := by
  refine commutesWith_ite (fun _ => Iff.rfl) (fun s => ?_) commutesWith_noStep
  dsimp only [State.disturbed, State.packetBytes]
  split
  · rfl
  · split
    · rfl
    · split <;> rfl

theorem commutes_completePlain : CommutesWith (State.disturbed fifo bad fail) execCompletePlain := by
  refine commutesWith_ite (fun _ => Iff.rfl) (fun s => ?_) commutesWith_noStep
  dsimp only [State.disturbed, State.packetBytes]
  split
  · rfl
  · split
    · rfl
    · split <;> rfl

theorem caseCommutes_headerPartial (b : Byte) :
    CaseCommutesWith (State.disturbed fifo bad fail) fun s1 =>
      match s1.headerType? with
      | some p => if s1.hdrCursor.toNat + 1 < p.hdrLen then some (storeHeaderByte b s1) else none
      | none => none := by
  intro s
  have htype : (s.disturbed fifo bad fail).headerType? = s.headerType? := rfl
  simp only [htype]
  cases s.headerType? with
  | none => rfl
  | some p =>
    exact caseCommutesWith_guard (f := State.disturbed fifo bad fail)
      (c := fun s1 => s1.hdrCursor.toNat + 1 < p.hdrLen) (fun _ => Iff.rfl)
      (commutes_storeHeaderByte fifo bad fail b) s

theorem caseCommutes_headerComplete (b : Byte) :
    CaseCommutesWith (State.disturbed fifo bad fail) fun s1 =>
      match s1.headerType? with
      | some p =>
        if s1.hdrCursor.toNat + 1 = p.hdrLen then
          some (andThen (andThen (storeHeaderByte b s1) (headerComplete p)) resolveComplete)
        else none
      | none => none := by
  intro s
  have htype : (s.disturbed fifo bad fail).headerType? = s.headerType? := rfl
  simp only [htype]
  cases s.headerType? with
  | none => rfl
  | some p =>
    exact caseCommutesWith_guard (f := State.disturbed fifo bad fail)
      (c := fun s1 => s1.hdrCursor.toNat + 1 = p.hdrLen) (fun _ => Iff.rfl)
      (commutesWith_andThen
        (commutesWith_andThen (commutes_storeHeaderByte fifo bad fail b) (commutes_headerComplete fifo bad fail p))
        (commutes_resolveComplete fifo bad fail)) s

end

/-! ## The rows of reception -/

/-- A case of `RX_BYTE` that reads neither the rest of the FIFO nor the counters, and writes no more than them. -/
def CaseOblivious (case : Byte → State → Option Result) : Prop :=
  ∀ fifo bad fail b, CaseCommutesWith (State.disturbed fifo bad fail) (case b)

/-- `RX_BYTE` is the selection that selects always. -/
theorem execRxByte_eq_rxSelected : execRxByte = rxSelected fun b s1 => some (rxStep b s1) := by
  funext s
  unfold execRxByte rxSelected
  cases s.takeRxByte <;> rfl

/-- The rows of reception: a selection of such cases, or a Complete resolution alone. -/
theorem exec_reception_cases {i : Instr} (hi : i = .rxByte ∨ i.format ≠ .opTag) :
    (∃ case, CaseOblivious case ∧ exec i = rxSelected case) ∨
    ∀ fifo bad fail, CommutesWith (State.disturbed fifo bad fail) (exec i) := by
  have hframe (ty : Byte) : CaseOblivious fun b s1 => if s1.frameType? b = some ty then some (rxStep b s1) else none :=
    fun fifo bad fail b => caseCommutesWith_guard (fun _ => Iff.rfl) (commutes_rxStep fifo bad fail b)
  cases i with
  | rxByte =>
    exact .inl ⟨_, fun fifo bad fail b s => congrArg some (commutes_rxStep fifo bad fail b s),
      execRxByte_eq_rxSelected⟩
  | h4Cmd | h4Acl | h4Evt | h4SyncInvalid | h4Invalid00 | h4Invalid05 | h4Invalid06 | h4Invalid08 | h4Invalid10
  | h4Invalid20 | h4Invalid40 | h4Invalid80 => exact .inl ⟨_, hframe _, rfl⟩
  | rxByteIdle =>
    exact .inl ⟨_, fun fifo bad fail b => caseCommutesWith_guard (fun _ => Iff.rfl)
      (commutes_idleByte fifo bad fail b), rfl⟩
  | rxByteHeaderPartial => exact .inl ⟨_, caseCommutes_headerPartial, rfl⟩
  | rxByteHeaderComplete => exact .inl ⟨_, caseCommutes_headerComplete, rfl⟩
  | rxByteHeaderBadtype =>
    exact .inl ⟨_, fun fifo bad fail _ => caseCommutesWith_guard (fun _ => Iff.rfl)
      (commutes_badType fifo bad fail), rfl⟩
  | rxByteDataMore =>
    exact .inl ⟨_, fun fifo bad fail b => caseCommutesWith_guard (fun _ => Iff.rfl)
      (commutes_dataByte fifo bad fail b), rfl⟩
  | rxByteDataLast =>
    exact .inl ⟨_, fun fifo bad fail b => caseCommutesWith_guard (fun _ => Iff.rfl)
      (commutesWith_andThen (commutes_dataByte fifo bad fail b) (commutes_complete fifo bad fail)), rfl⟩
  | rxByteError =>
    exact .inl ⟨_, fun fifo bad fail _ => caseCommutesWith_guard (fun _ => Iff.rfl)
      (commutes_errorByte fifo bad fail), rfl⟩
  | completeVendorCc => exact .inr commutes_completeVendorCc
  | completePlain => exact .inr commutes_completePlain
  | _ => simp [Instr.format] at hi

/-- The FIFO held as it is. -/
theorem disturbed_self (s : State) : s.disturbed (fun _ => s.rxFifo) 0 0 = s := by
  simp [State.disturbed]

/-- A result that the FIFO of `s` may be forced upon keeps that FIFO. -/
theorem rxFifo_of_andThen_disturbed {r : Result} {q : List Byte}
    (hr : r = andThen r fun t => .next (t.disturbed (fun _ => q) 0 0)) : EachNext (fun t => t.rxFifo = q) r := by
  intro t ht
  rw [ht, andThen_next] at hr
  exact congrArg State.rxFifo (Host.Outcome.next.inj hr)

/-- R161: a row of reception leaves the FIFO or takes its head, the latter only inside a handler. -/
theorem exec_reception_rxFifo {i : Instr} (hi : i = .rxByte ∨ i.format ≠ .opTag) (hstep : exec i s = .next t) :
    t.rxFifo = s.rxFifo ∨ ∃ b, s.rxFifo = b :: t.rxFifo ∧ s.isrPhase ≠ .none := by
  obtain ⟨case, hcase, hexec⟩ | hcommutes := exec_reception_cases hi
  · rw [hexec, rxSelected] at hstep
    split at hstep
    next b s1 htake =>
      obtain ⟨hphase, rest, hfifo, rfl⟩ := takeRxByte_eq_some.1 htake
      have hself := hcase (fun _ => rest) 0 0 b { s with rxFifo := rest }
      rw [disturbed_self { s with rxFifo := rest }] at hself
      cases hr : case b { s with rxFifo := rest } with
      | none =>
        rw [hr] at hstep
        obtain rfl := Host.Outcome.next.inj hstep
        exact .inl rfl
      | some r =>
        rw [hr] at hstep hself
        have hrest : t.rxFifo = rest := rxFifo_of_andThen_disturbed (Option.some.inj hself) t hstep
        exact .inr ⟨b, by rw [hfifo, hrest], hphase⟩
    next =>
      obtain rfl := Host.Outcome.next.inj hstep
      exact .inl rfl
  · have hself := hcommutes (fun _ => s.rxFifo) 0 0 s
    rw [disturbed_self] at hself
    exact .inl (rxFifo_of_andThen_disturbed hself t hstep)

/-- Another count is no matter to the byte that `RX_BYTE` takes. -/
theorem takeRxByte_disturbed (bad fail : BitVec 32) (s : State) :
    (s.disturbed id bad fail).takeRxByte =
      s.takeRxByte.map fun taken => (taken.1, taken.2.disturbed id bad fail) := by
  cases htake : s.takeRxByte with
  | none =>
    have hdisabled := takeRxByte_eq_none.1 htake
    exact takeRxByte_eq_none.2 hdisabled
  | some taken =>
    obtain ⟨hphase, rest, hfifo, heq⟩ := takeRxByte_eq_some.1 htake
    rw [Option.map_some, heq]
    exact takeRxByte_of_cons hphase hfifo

theorem commutes_rxSelected {case : Byte → State → Option Result} (hcase : CaseOblivious case)
    (bad fail : BitVec 32) : CommutesWith (State.disturbed id bad fail) (rxSelected case) := by
  intro s
  unfold rxSelected
  rw [takeRxByte_disturbed]
  cases s.takeRxByte with
  | none => rfl
  | some taken =>
    obtain ⟨b, s1⟩ := taken
    simp only [Option.map_some, hcase id bad fail b s1]
    cases case b s1 <;> rfl

/-- R29: the rows of reception go the same way with other counts. -/
theorem commutes_exec_reception {i : Instr} (hi : i = .rxByte ∨ i.format ≠ .opTag) (bad fail : BitVec 32) :
    CommutesWith (State.disturbed id bad fail) (exec i) := by
  obtain ⟨case, hcase, hexec⟩ | hcommutes := exec_reception_cases hi
  · rw [hexec]
    exact commutes_rxSelected hcase bad fail
  · exact hcommutes id bad fail

end Sys2Proof.Machine
end

section
/-! PROOFS. The statements of spec/10_state.md about every operation: the invariants, the absence of model faults, the
FIFO, the device-wake bit and the fault set. Each goes by the kind of the instruction: `RESET`, reception, an effect. -/

namespace Sys2Proof.Machine

variable {s t : State}

/-! ## The invariants -/

/-- Settles O56. -/
theorem invariantsHoldAtReset : Obligations.InvariantsHoldAtReset := ⟨reassemblerInv_reset, transportInv_reset⟩

/-- Reception keeps the invariant of the transport wrapper: of its elements it touches the FIFO alone, which it may only
shorten. -/
theorem reception_keeps_transportInv (hinv : TransportInv s) (hkept : t.besidesReception = s.besidesReception)
    (hfifo : t.rxFifo = s.rxFifo ∨ ∃ b, s.rxFifo = b :: t.rxFifo ∧ s.isrPhase ≠ .none) : TransportInv t := by
  have hshort : TransportInv { s with rxFifo := t.rxFifo } :=
    { hinv with
      fifoArmed := fun hne => by
        obtain heq | ⟨b, heq, -⟩ := hfifo
        · exact hinv.fifoArmed (heq ▸ hne)
        · exact hinv.fifoArmed (by simp [heq]) }
  exact transportInv_of_view_eq hshort
    (congrArg (fun u => State.transportView { u with rxFifo := t.rxFifo }) hkept)

theorem exec_keeps_transportInv {i : Instr} (hwf : i.wf = true) (hinv : TransportInv s)
    (hstep : exec i s = .next t) : TransportInv t := by
  obtain ⟨-, rfl⟩ | ⟨hi, hreception⟩ | heff := exec_next_cases hstep
  · exact transportInv_of_view_eq transportInv_reset rfl
  · exact reception_keeps_transportInv hinv hreception.kept (exec_reception_rxFifo hi hstep)
  · exact effect_keeps_transportInv hwf heff hinv

/-- Settles O58: the decoder reads only a `WRITE_BEGIN` with all its data, and every operation keeps the invariant. -/
theorem stepKeepsTransportInvariant : Obligations.StepKeepsTransportInvariant := by
  intro s t hinv hstep
  obtain hidle | ⟨r, hrefused⟩ | ⟨i, rest, -, hwf, hrun⟩ := step_cases s
  · obtain rfl := Host.Outcome.next.inj (hidle.symm.trans hstep)
    exact hinv
  · cases hrefused.symm.trans hstep
  · exact exec_keeps_transportInv (s := { s with script := rest }) hwf (transportInv_of_view_eq hinv rfl)
      (hrun.symm.trans hstep)

/-! ## No fault of the model -/

/-- The result is a next state or a refusal. -/
def NoFault (r : Result) : Prop := ∀ e, r ≠ .fault e

theorem noFault_next : NoFault (.next s) := nofun

theorem noFault_ite {c : Prop} [Decidable c] {r r' : Result} (h : NoFault r) (h' : NoFault r') :
    NoFault (if c then r else r') := by
  split
  · exact h
  · exact h'

theorem noFault_refused_of_noAgent {i : Instr} (hi : i.agent = none) : NoFault (exec i s) := by
  cases i <;> cases hi <;> nofun

/-- R156: a byte of the data is there to be sent. -/
theorem noFault_transmitByte (hinv : TransportInv s) : NoFault (transmitByte s) := by
  unfold transmitByte
  cases htx : s.txPhase with
  | idle | type | done => exact noFault_next
  | data =>
    have hlt : s.txIdx.toNat < s.txData.length := hinv.dataLength ▸ hinv.dataIndex htx
    simp only [List.getElem?_eq_getElem hlt]
    exact noFault_next

theorem noFault_writeByte (hinv : TransportInv s) : NoFault (exec .writeByte s) :=
  noFault_ite (noFault_ite (noFault_transmitByte (transportInv_readyDrawn hinv)) noFault_next) noFault_next

/-- Under the invariants every operation answers; only `RX_BYTE` and `WRITE_BYTE` rest on them. -/
theorem noFault_exec {i : Instr} (hop : i.format = .opTag) (hrinv : ReassemblerInv s) (htinv : TransportInv s) :
    NoFault (exec i s) := by
  by_cases hagent : i.agent = none
  · exact noFault_refused_of_noAgent hagent
  cases i with
  | rxByte =>
    obtain ⟨t, ht, -⟩ := exec_rxByte_inv hrinv
    rw [ht]
    exact noFault_next
  | writeByte => exact noFault_writeByte htinv
  | reset | terminate | envHostwakeEdge => exact noFault_next
  | initSettle | writeEnd | rxirqExit | hostwakeFall | hostwakeExit | envRxArrive =>
    exact noFault_ite noFault_next noFault_next
  | init => exact noFault_ite (noFault_ite noFault_next noFault_next) noFault_next
  | writeBegin =>
    exact noFault_ite (noFault_ite (noFault_ite noFault_next noFault_next) noFault_next) noFault_next
  | rxirqEnter =>
    exact noFault_ite (noFault_ite noFault_next (noFault_ite noFault_next noFault_next)) noFault_next
  | _ => simp_all [Instr.format, Instr.agent]

/-- Settles O59. -/
theorem invariantStatesNeverFault : Obligations.InvariantStatesNeverFault := by
  intro s e hrinv htinv
  obtain hidle | ⟨r, hrefused⟩ | ⟨i, rest, hop, -, hrun⟩ := step_cases s
  · rw [hidle]
    exact noFault_next e
  · rw [hrefused]
    nofun
  · rw [hrun]
    exact noFault_exec (s := { s with script := rest }) hop (reassemblerInv_of_reassembly_eq hrinv rfl)
      (transportInv_of_view_eq htinv rfl) e

/-! ## The receive FIFO -/

theorem effect_rxFifo {i : Instr} (heff : Effect i s t) :
    t.rxFifo = s.rxFifo ∨ ∃ b, i = .envRxArrive b ∧ t.rxFifo = s.rxFifo ++ [b] := by
  cases heff with
  | byteArrived b => exact .inr ⟨b, rfl, rfl⟩
  | uartBusy | typeSent | dataSent | rxEnteredSpuriously | notEntered => exact .inl (by simp)
  | _ => exact .inl rfl

/-- Settles O27: the effects give the first two cases, reception the first and the last. -/
theorem fifoIsFirstInFirstOut : Obligations.FifoIsFirstInFirstOut := by
  intro i s t hreset hstep
  obtain ⟨heq, -⟩ | ⟨hi, -⟩ | heff := exec_next_cases hstep
  · exact absurd heq hreset
  · exact (exec_reception_rxFifo hi hstep).imp_right .inr
  · exact (effect_rxFifo heff).imp_right .inl

/-! ## The fault set -/

theorem has_insert (f : FaultSet) (c c' : FaultCode) (hc : f.has c = true) : (f.insert c').has c = true := by
  cases c <;> cases c' <;> simp_all [FaultSet.has, FaultSet.insert]

theorem effect_keeps_faults {i : Instr} (heff : Effect i s t) (c : FaultCode) (hc : s.faults.has c = true) :
    t.faults.has c = true := by
  cases heff with
  | initTwice | writeBeforeInit => exact has_insert s.faults c _ hc
  | uartBusy | typeSent | dataSent | rxEnteredSpuriously | notEntered => simpa using hc
  | _ => exact hc

theorem freeHeld_faults (s : State) : s.freeHeld.faults = s.faults := by
  unfold State.freeHeld
  split <;> rfl

/-- R35: every instruction keeps every recorded code, and only `INIT` and `WRITE_BEGIN` add one. -/
theorem exec_keeps_faults {i : Instr} (hstep : exec i s = .next t) (c : FaultCode) (hc : s.faults.has c = true) :
    t.faults.has c = true := by
  obtain ⟨-, rfl⟩ | ⟨-, hreception⟩ | heff := exec_next_cases hstep
  · exact (freeHeld_faults s).symm ▸ hc
  · have hfaults : t.faults = s.faults := (congrArg State.faults hreception.kept :)
    rwa [hfaults]
  · exact effect_keeps_faults heff c hc

/-- R201: a state is good when it holds no code. -/
theorem faultFree_eq_false : s.faultFree = false ↔ ∃ c, s.faults.has c = true := by
  constructor
  · intro h
    obtain hc | hc : s.faults.writeBeforeInit = true ∨ s.faults.initTwice = true := by
      simpa [State.faultFree, FaultSet.isEmpty, Classical.or_iff_not_imp_left] using h
    · exact ⟨.writeBeforeInit, hc⟩
    · exact ⟨.initTwice, hc⟩
  · rintro ⟨c, hc⟩
    cases c <;> simp_all [State.faultFree, FaultSet.isEmpty, FaultSet.has]

/-- Settles O49. -/
theorem faultsAreSticky : Obligations.FaultsAreSticky := by
  refine fun i s t hstep => ⟨exec_keeps_faults hstep, fun hbad => ?_⟩
  obtain ⟨c, hc⟩ := faultFree_eq_false.1 hbad
  exact faultFree_eq_false.2 ⟨c, exec_keeps_faults hstep c hc⟩

/-! ## The device-wake bit -/

/-- The level after the device-wake events among `es`, from `level`. -/
def lastWake (level : Bool) (es : List Event) : Bool := (es.filterMap Event.wakeLevel?).getLast?.getD level

/-- The bit is what the last device-wake event of the step says. -/
def WakeFollows (s t : State) : Prop := ∃ es, t.trace = s.trace ++ es ∧ t.devWake = lastWake s.devWake es

theorem wakeFollows_silent (htrace : t.trace = s.trace) (hwake : t.devWake = s.devWake) : WakeFollows s t :=
  ⟨[], by rw [htrace, List.append_nil], hwake⟩

theorem WakeFollows.eq_newEvents (h : WakeFollows s t) : t.devWake = lastWake s.devWake (newEvents s t) := by
  obtain ⟨es, htrace, hwake⟩ := h
  rw [newEvents_of_append htrace, hwake]

theorem reception_wakeFollows (hreception : ReceptionStep s t) : WakeFollows s t := by
  obtain ⟨hkept, es, htrace, hown⟩ := hreception
  have hnone : es.filterMap Event.wakeLevel? = [] := by
    refine List.filterMap_eq_nil_iff.2 fun e he => Option.eq_none_iff_forall_ne_some.2 fun level heq => ?_
    rw [wakeLevel?_eq_some] at heq
    exact absurd (heq ▸ hown e he) (by simp [Event.ofReassembler])
  have hwake : t.devWake = s.devWake := (congrArg State.devWake hkept :)
  exact ⟨es, htrace, by rw [lastWake, hnone, hwake]; rfl⟩

theorem effect_wakeFollows {i : Instr} (heff : Effect i s t) : WakeFollows s t := by
  cases heff with
  | noStep | byteArrived | edgeSeen => exact wakeFollows_silent rfl rfl
  | uartBusy | notEntered => exact wakeFollows_silent (by simp) (by simp)
  | initialised => exact ⟨[.uartConfig initUartCfg], rfl, rfl⟩
  | initTwice | writeBeforeInit => exact ⟨[.fault _], rfl, rfl⟩
  | settled | rxExited => exact ⟨[.devWake false], rfl, rfl⟩
  | writeBegun | rxEntered => exact ⟨[.devWake true], rfl, rfl⟩
  | typeSent => exact ⟨[.txByte s.txType], by simp, by simp [lastWake, Event.wakeLevel?]⟩
  | dataSent b => exact ⟨[.txByte b], by simp, by simp [lastWake, Event.wakeLevel?]⟩
  | writeEnded => exact ⟨[.devWake false, .writeReturn s.txLen], by simp, rfl⟩
  | rxEnteredSpuriously => exact ⟨[.devWake true], by simp, rfl⟩
  | hostWakeEntered => exact ⟨[.sleepLock, .devWake true], by simp, rfl⟩
  | hostWakeExited => exact ⟨[.devWake false, .sleepUnlock], by simp, rfl⟩

/-- R33: the bit after an instruction other than `RESET`, by the events of the step. -/
theorem exec_devWake {i : Instr} (hreset : i ≠ .reset) (hstep : exec i s = .next t) :
    t.devWake = lastWake s.devWake (newEvents s t) := by
  obtain ⟨heq, -⟩ | ⟨-, hreception⟩ | heff := exec_next_cases hstep
  · exact absurd heq hreset
  · exact (reception_wakeFollows hreception).eq_newEvents
  · exact (effect_wakeFollows heff).eq_newEvents

theorem exec_writeBegin_of_ready {type : Byte} {length : Half} {data : List Byte} (hphase : s.isrPhase = .none)
    (hinit : s.initState = .ready) (htx : s.txPhase = .idle) :
    exec (.writeBegin type length data) s = .next (s.writeBegun type length data) := by
  simp [exec, execWriteBegin, hphase, hinit, htx]

/-- Settles O45: the bit follows the events; and each assert and deassert that is enabled gives the next state that its
rule names, whatever the bit held. -/
theorem deviceWakeIsOneBitWithoutNesting : Obligations.DeviceWakeIsOneBitWithoutNesting := by
  refine ⟨fun i s t => exec_devWake, fun s ty len data hphase hinit htx => ?_, fun s hphase harmed hbyte => ?_,
    fun s hphase hpending => ?_, fun s hphase hinit => ?_, fun s hphase htx => ?_, fun s hphase hfifo => ?_,
    fun s hphase hfifo => ?_, fun _ => rfl⟩
  · exact ⟨s.writeBegun ty len data, exec_writeBegin_of_ready hphase hinit htx, rfl, newEvents_of_append rfl⟩
  · by_cases hfifo : s.rxFifo = []
    · have hspurious : s.spurious = true := hbyte.resolve_left (not_not_intro hfifo)
      exact ⟨s.spuriousDrawn.enterHandler .rx,
        by simp [exec, execRxirqEnter, State.rxRequest, hphase, harmed, hfifo, hspurious], rfl,
        newEvents_of_append (by simp)⟩
    · exact ⟨s.enterHandler .rx, by simp [exec, execRxirqEnter, State.rxRequest, hphase, harmed, hfifo], rfl,
        newEvents_of_append rfl⟩
  · exact ⟨State.enterHandler .hostWake (State.takeSleepLock { s with hwPending := false }),
      by simp [exec, execHostwakeFall, State.hostWakeRequest, hphase, hpending], rfl, newEvents_of_append (by simp)⟩
  · exact ⟨{ s.setDevWake false with initState := .ready }, by simp [exec, execInitSettle, hphase, hinit], rfl,
      newEvents_of_append rfl⟩
  · exact ⟨{ (s.setDevWake false).emit (.writeReturn s.txLen) with txPhase := .idle },
      by simp [exec, execWriteEnd, hphase, htx], rfl, newEvents_of_append (by simp)⟩
  · exact ⟨s.leaveHandler, by simp [exec, execRxirqExit, hphase, hfifo], rfl, newEvents_of_append rfl⟩
  · exact ⟨s.leaveHandler.dropSleepLock, by simp [exec, execHostwakeExit, hphase, hfifo], rfl,
      newEvents_of_append (by simp)⟩

/-- A level other than the one before is that of an event. -/
theorem devWake_mem_of_lastWake_ne {level : Bool} {es : List Event} (hne : lastWake level es ≠ level) :
    Event.devWake (lastWake level es) ∈ es := by
  unfold lastWake at hne ⊢
  cases hlast : (es.filterMap Event.wakeLevel?).getLast? with
  | none => simp [hlast] at hne
  | some level' =>
    obtain ⟨e, he, hlevel⟩ := List.mem_filterMap.1 (List.mem_of_getLast? hlast)
    rwa [Option.getD_some, ← wakeLevel?_eq_some.1 hlevel]

/-- Settles O51: by O45 a changed bit is the level of the last device-wake event. -/
theorem deviceWakeChangesAreEvents : Obligations.DeviceWakeChangesAreEvents := by
  intro i s t hreset hstep hne
  have hwake := exec_devWake hreset hstep
  rw [hwake] at hne ⊢
  exact devWake_mem_of_lastWake_ne hne

end Sys2Proof.Machine
end

section
/-! PROOFS. The statements on noninterference: the counters change no behaviour (R29), and nothing depends on the
elements without a reset value (R26, log 4). An operation other than `RESET` and `RX_BYTE` reads nothing of the
reassembler; if it is no step of a write it reads nothing of `tx_type` and `tx_len` either. -/

namespace Sys2Proof.Machine

variable {s t : State}

/-! ## Operations outside reception -/

/-- The state with another reassembler, and with other values in `tx_type` and `tx_len`. -/
def State.altered (ra : Reassembly → Reassembly) (ty : Byte → Byte) (len : Half → Half) (s : State) : State :=
  { s with
    rxState := (ra s.reassembly).rxState, pktType := (ra s.reassembly).pktType, hdrBuf := (ra s.reassembly).hdrBuf
    hdrCursor := (ra s.reassembly).hdrCursor, countdown := (ra s.reassembly).countdown
    pktBuf := (ra s.reassembly).pktBuf, pktSize := (ra s.reassembly).pktSize, wrCursor := (ra s.reassembly).wrCursor
    badTypeCount := (ra s.reassembly).badTypeCount, allocFailCount := (ra s.reassembly).allocFailCount
    mem := (ra s.reassembly).mem, txType := ty s.txType, txLen := len s.txLen }

section
variable (ra : Reassembly → Reassembly) (ty : Byte → Byte) (len : Half → Half)

theorem readyDrawn_altered (s : State) : (s.altered ra ty len).readyDrawn = s.readyDrawn.altered ra ty len := by
  unfold State.readyDrawn State.altered
  dsimp only
  split <;> rfl

theorem spuriousDrawn_altered (s : State) :
    (s.altered ra ty len).spuriousDrawn = s.spuriousDrawn.altered ra ty len := by
  unfold State.spuriousDrawn State.altered
  dsimp only
  split <;> rfl

theorem enterHandler_altered (p : IsrPhase) (s : State) :
    (s.altered ra ty len).enterHandler p = (s.enterHandler p).altered ra ty len := rfl

theorem takeSleepLock_altered (s : State) :
    (s.altered ra ty len).takeSleepLock = s.takeSleepLock.altered ra ty len := rfl

theorem commutes_init : CommutesWith (State.altered ra ty len) execInit :=
  commutesWith_ite (fun _ => Iff.rfl)
    (commutesWith_ite (fun _ => Iff.rfl) (commutesWith_next fun _ => rfl) (commutesWith_next fun _ => rfl))
    commutesWith_noStep

theorem commutes_initSettle : CommutesWith (State.altered ra ty len) execInitSettle :=
  commutesWith_ite (fun _ => Iff.rfl) (commutesWith_next fun _ => rfl) commutesWith_noStep

theorem commutes_rxirqEnter : CommutesWith (State.altered ra ty len) execRxirqEnter :=
  commutesWith_ite (fun _ => Iff.rfl)
    (commutesWith_ite (fun _ => Iff.rfl) (commutesWith_next fun _ => rfl)
      (commutesWith_ite (fun _ => Iff.rfl)
        (commutesWith_next fun s => by rw [spuriousDrawn_altered]; rfl)
        (commutesWith_next (spuriousDrawn_altered ra ty len))))
    commutesWith_noStep

theorem commutes_rxirqExit : CommutesWith (State.altered ra ty len) execRxirqExit :=
  commutesWith_ite (fun _ => Iff.rfl) (commutesWith_next fun _ => rfl) commutesWith_noStep

theorem commutes_hostwakeFall : CommutesWith (State.altered ra ty len) execHostwakeFall := by
  refine commutesWith_ite (fun _ => Iff.rfl) (commutesWith_next fun s => ?_) commutesWith_noStep
  rw [← enterHandler_altered, ← takeSleepLock_altered]
  rfl

theorem commutes_hostwakeExit : CommutesWith (State.altered ra ty len) execHostwakeExit :=
  commutesWith_ite (fun _ => Iff.rfl) (commutesWith_next fun _ => rfl) commutesWith_noStep

theorem commutes_envRxArrive (b : Byte) : CommutesWith (State.altered ra ty len) (execEnvRxArrive b) :=
  commutesWith_ite (fun _ => Iff.rfl) (commutesWith_next fun _ => rfl) commutesWith_noStep

theorem commutes_envHostwakeEdge : CommutesWith (State.altered ra ty len) execEnvHostwakeEdge := by
  refine commutesWith_next fun s => ?_
  dsimp only [State.altered]
  split <;> rfl

theorem commutes_writeBegin (type : Byte) (length : Half) (data : List Byte) :
    CommutesWith (State.altered ra id id) (execWriteBegin type length data) :=
  commutesWith_ite (fun _ => Iff.rfl)
    (commutesWith_ite (fun _ => Iff.rfl)
      (commutesWith_ite (fun _ => Iff.rfl) (commutesWith_next fun _ => rfl) commutesWith_noStep)
      (commutesWith_next fun _ => rfl))
    commutesWith_noStep

theorem commutes_transmitByte : CommutesWith (State.altered ra id id) transmitByte := by
  intro s
  unfold transmitByte
  dsimp only [State.altered, id_eq]
  split
  · rfl
  · split <;> rfl
  · rfl
  · rfl

theorem commutes_writeByte : CommutesWith (State.altered ra id id) execWriteByte :=
  commutesWith_ite (fun _ => Iff.rfl)
    (commutesWith_ite (fun _ => Iff.rfl)
      (fun s => by rw [readyDrawn_altered]; exact commutes_transmitByte ra s.readyDrawn)
      (commutesWith_next (readyDrawn_altered ra id id)))
    commutesWith_noStep

theorem commutes_writeEnd : CommutesWith (State.altered ra id id) execWriteEnd :=
  commutesWith_ite (fun _ => Iff.rfl) (commutesWith_next fun _ => rfl) commutesWith_noStep

end

/-- Whether an instruction is one of the three steps of a write (R154 to R159). -/
def isWriteStep : Instr → Bool
  | .writeBegin _ _ _ | .writeByte | .writeEnd => true
  | _ => false

/-- A step outside reception that is no step of a write. -/
theorem commutes_exec_of_notWrite (ra : Reassembly → Reassembly) (ty : Byte → Byte) (len : Half → Half)
    {i : Instr} (hop : i.format = .opTag) (hreset : i ≠ .reset) (hrx : i ≠ .rxByte)
    (hwrite : isWriteStep i = false) : CommutesWith (State.altered ra ty len) (exec i) := by
  cases i with
  | init => exact commutes_init ra ty len
  | initSettle => exact commutes_initSettle ra ty len
  | terminate => exact commutesWith_noStep
  | rxirqEnter => exact commutes_rxirqEnter ra ty len
  | rxirqExit => exact commutes_rxirqExit ra ty len
  | hostwakeFall => exact commutes_hostwakeFall ra ty len
  | hostwakeExit => exact commutes_hostwakeExit ra ty len
  | envRxArrive b => exact commutes_envRxArrive ra ty len b
  | envHostwakeEdge => exact commutes_envHostwakeEdge ra ty len
  | unusedTag04 | unusedTag08 | unusedTag13 | unusedTag14 | unusedTag18 | unusedTag23 | unusedTag24 | unusedTag28
  | unusedTag32 | unusedTag34 | unusedTag38 | unusedTag42 | unusedTag44 | unusedTag48 | unusedTag50 | unusedTag60
  | unusedTag80 => exact fun _ => rfl
  | _ => simp_all [Instr.format, isWriteStep]

/-- A step outside reception reads nothing of the reassembler. -/
theorem commutes_exec_outside (ra : Reassembly → Reassembly) {i : Instr} (hop : i.format = .opTag)
    (hreset : i ≠ .reset) (hrx : i ≠ .rxByte) : CommutesWith (State.altered ra id id) (exec i) := by
  cases hwrite : isWriteStep i with
  | false => exact commutes_exec_of_notWrite ra id id hop hreset hrx hwrite
  | true =>
    cases i with
    | writeBegin type length data => exact commutes_writeBegin ra type length data
    | writeByte => exact commutes_writeByte ra
    | writeEnd => exact commutes_writeEnd ra
    | _ => simp [isWriteStep] at hwrite

/-! ## The counters -/

/-- The reassembler with its counters moved on. -/
def Reassembly.countedOn (bad fail : BitVec 32) (r : Reassembly) : Reassembly :=
  { r with badTypeCount := r.badTypeCount + bad, allocFailCount := r.allocFailCount + fail }

/-- The two ways in which other counts are written: as a disturbance of reception, and as another reassembler. -/
theorem altered_countedOn (bad fail : BitVec 32) (s : State) :
    s.altered (Reassembly.countedOn bad fail) id id = s.disturbed id bad fail := rfl

/-- R29: every instruction but `RESET` goes the same way with other counts. -/
theorem commutes_exec_counts {i : Instr} (hreset : i ≠ .reset) (bad fail : BitVec 32) :
    CommutesWith (State.disturbed id bad fail) (exec i) := by
  by_cases hi : i = .rxByte ∨ i.format ≠ .opTag
  · exact commutes_exec_reception hi bad fail
  · obtain ⟨hrx, hop⟩ := not_or.1 hi
    exact commutes_exec_outside (Reassembly.countedOn bad fail) (not_not.1 hop) hreset hrx

/-- Settles O54. -/
theorem countersNeverChangeBehaviour : Obligations.CountersNeverChangeBehaviour :=
  ⟨by decide, fun _ _ _ bad fail hreset hstep => (commutes_exec_counts hreset bad fail).next_eq hstep⟩

/-! ## Single operations -/

theorem exec_rxByte_disabled (hdisabled : s.isrPhase = .none ∨ s.rxFifo = []) : exec .rxByte s = .next s := by
  simp only [exec, execRxByte, takeRxByte_eq_none.2 hdisabled, noStep]

theorem exec_rxByte_of_idle {b : Byte} {rest : List Byte} (hphase : s.isrPhase ≠ .none) (hfifo : s.rxFifo = b :: rest)
    (hstate : s.rxState = .idle) : exec .rxByte s = .next (idleByte b { s with rxFifo := rest }) := by
  simp only [exec, execRxByte, takeRxByte_of_cons hphase hfifo, rxStep, rxCase, hstate, andThen_next]
  exact resolveComplete_of_ne nofun

theorem exec_rxByte_of_error {b : Byte} {rest : List Byte} (hphase : s.isrPhase ≠ .none)
    (hfifo : s.rxFifo = b :: rest) (hstate : s.rxState = .error) :
    exec .rxByte s = .next (errorByte { s with rxFifo := rest }) := by
  simp only [exec, execRxByte, takeRxByte_of_cons hphase hfifo, rxStep, rxCase, hstate, andThen_next]
  exact resolveComplete_of_ne nofun

theorem exec_writeBegin_of_notReady {type : Byte} {length : Half} {data : List Byte} (hphase : s.isrPhase = .none)
    (hinit : s.initState ≠ .ready) :
    exec (.writeBegin type length data) s = .next (s.raiseFault .writeBeforeInit) := by
  simp [exec, execWriteBegin, hphase, hinit]

theorem exec_writeBegin_of_handler {type : Byte} {length : Half} {data : List Byte} (hphase : s.isrPhase ≠ .none) :
    exec (.writeBegin type length data) s = .next s := by
  simp [exec, execWriteBegin, hphase, noStep]

theorem exec_writeByte_of_idle (htx : s.txPhase = .idle) : exec .writeByte s = .next s := by
  simp [exec, execWriteByte, htx, noStep]

theorem exec_writeEnd_of_idle (htx : s.txPhase = .idle) : exec .writeEnd s = .next s := by
  simp [exec, execWriteEnd, htx, noStep]

/-- Only the steps of a write move `tx_phase`. -/
theorem effect_txPhase {i : Instr} (hwrite : isWriteStep i = false) (heff : Effect i s t) : t.txPhase = s.txPhase := by
  cases heff with
  | writeBegun | writeBeforeInit | uartBusy | typeSent | dataSent | writeEnded => simp [isWriteStep] at hwrite
  | rxEnteredSpuriously | notEntered => simp
  | _ => rfl

/-! ## The elements without a reset value -/

/-- `t'` is `t` but for the elements without a reset value, and agrees with `t` on those that stand for the frame being
received or sent. -/
def SameButUnwritten (t t' : State) : Prop :=
  ∃ ty txTy hdr txLen, t' = t.withUnwritten ty hdr txTy txLen ∧
    (t.rxState = .header → ty = t.pktType) ∧ (t.txPhase = .type → txTy = t.txType ∧ txLen = t.txLen)

theorem sameButUnwritten_refl (t : State) : SameButUnwritten t t :=
  ⟨t.pktType, t.txType, t.hdrBuf, t.txLen, rfl, fun _ => rfl, fun _ => ⟨rfl, rfl⟩⟩

/-- Where nothing is being received or sent the elements are free. -/
theorem sameButUnwritten_idle (ty txTy : Byte) (hdr : HeaderBuffer) (txLen : Half) (hrx : t.rxState ≠ .header)
    (htx : t.txPhase ≠ .type) : SameButUnwritten t (t.withUnwritten ty hdr txTy txLen) :=
  ⟨ty, txTy, hdr, txLen, rfl, fun h => absurd h hrx, fun h => absurd h htx⟩

theorem withUnwritten_eq_altered (ty txTy : Byte) (hdr : HeaderBuffer) (txLen : Half) (s : State) :
    s.withUnwritten ty hdr txTy txLen =
      s.altered (fun r => { r with pktType := ty, hdrBuf := hdr }) (fun _ => txTy) (fun _ => txLen) := rfl

section
variable (ty txTy : Byte) (hdr : HeaderBuffer) (txLen : Half)

/-- R230: `RESET` leaves the same state, whatever the elements held. -/
theorem exec_reset_withUnwritten (s : State) :
    exec .reset (s.withUnwritten ty hdr txTy txLen) = exec .reset s := by
  simp only [exec, execReset, State.freeHeld, State.withUnwritten]
  split <;> rfl

/-- R100, R111: in `IDLE` the byte is the new `pkt_type`, in `ERROR` it is dropped; no header byte is read. -/
theorem exec_rxByte_withUnwritten (hstate : s.rxState = .idle ∨ s.rxState = .error) (htx : s.txPhase = .idle)
    (hstep : exec .rxByte s = .next t) :
    ∃ t', exec .rxByte (s.withUnwritten ty hdr txTy txLen) = .next t' ∧ SameButUnwritten t t' := by
  by_cases hdisabled : s.isrPhase = .none ∨ s.rxFifo = []
  · obtain rfl := Host.Outcome.next.inj ((exec_rxByte_disabled hdisabled).symm.trans hstep)
    exact ⟨_, exec_rxByte_disabled hdisabled,
      sameButUnwritten_idle ty txTy hdr txLen (by obtain h | h := hstate <;> simp [h]) (by simp [htx])⟩
  obtain ⟨hphase, hne⟩ := not_or.1 hdisabled
  obtain ⟨b, rest, hfifo⟩ := List.exists_cons_of_ne_nil hne
  obtain hidle | herror := hstate
  · obtain rfl := Host.Outcome.next.inj ((exec_rxByte_of_idle hphase hfifo hidle).symm.trans hstep)
    refine ⟨_, exec_rxByte_of_idle hphase hfifo hidle, b, txTy, hdr, txLen, rfl, fun _ => rfl, fun htype => ?_⟩
    cases htx.symm.trans htype
  · obtain rfl := Host.Outcome.next.inj ((exec_rxByte_of_error hphase hfifo herror).symm.trans hstep)
    exact ⟨_, exec_rxByte_of_error hphase hfifo herror,
      sameButUnwritten_idle ty txTy hdr txLen nofun fun htype => nomatch htx.symm.trans htype⟩

/-- R155: `WRITE_BEGIN` writes `tx_type` and `tx_len` without reading them. -/
theorem exec_writeBegin_withUnwritten {type : Byte} {length : Half} {data : List Byte} (hstate : s.rxState ≠ .header)
    (htx : s.txPhase = .idle) (hstep : exec (.writeBegin type length data) s = .next t) :
    ∃ t', exec (.writeBegin type length data) (s.withUnwritten ty hdr txTy txLen) = .next t' ∧
      SameButUnwritten t t' := by
  have htype : s.txPhase ≠ .type := by simp [htx]
  by_cases hphase : s.isrPhase = .none
  · by_cases hinit : s.initState = .ready
    · obtain rfl := Host.Outcome.next.inj ((exec_writeBegin_of_ready hphase hinit htx).symm.trans hstep)
      exact ⟨_, exec_writeBegin_of_ready hphase hinit htx, ty, type, hdr, length, rfl, fun h => absurd h hstate,
        fun _ => ⟨rfl, rfl⟩⟩
    · obtain rfl := Host.Outcome.next.inj ((exec_writeBegin_of_notReady hphase hinit).symm.trans hstep)
      exact ⟨_, exec_writeBegin_of_notReady hphase hinit, sameButUnwritten_idle ty txTy hdr txLen hstate htype⟩
  · obtain rfl := Host.Outcome.next.inj ((exec_writeBegin_of_handler hphase).symm.trans hstep)
    exact ⟨_, exec_writeBegin_of_handler hphase, sameButUnwritten_idle ty txTy hdr txLen hstate htype⟩

/-- The steps of a write: only its begin does anything while none is in progress. -/
theorem exec_write_withUnwritten {i : Instr} (hwrite : isWriteStep i = true) (hstate : s.rxState ≠ .header)
    (htx : s.txPhase = .idle) (hstep : exec i s = .next t) :
    ∃ t', exec i (s.withUnwritten ty hdr txTy txLen) = .next t' ∧ SameButUnwritten t t' := by
  have hfree : SameButUnwritten s (s.withUnwritten ty hdr txTy txLen) :=
    sameButUnwritten_idle ty txTy hdr txLen hstate (by simp [htx])
  cases i with
  | writeBegin type length data => exact exec_writeBegin_withUnwritten ty txTy hdr txLen hstate htx hstep
  | writeByte =>
    obtain rfl := Host.Outcome.next.inj ((exec_writeByte_of_idle htx).symm.trans hstep)
    exact ⟨_, exec_writeByte_of_idle htx, hfree⟩
  | writeEnd =>
    obtain rfl := Host.Outcome.next.inj ((exec_writeEnd_of_idle htx).symm.trans hstep)
    exact ⟨_, exec_writeEnd_of_idle htx, hfree⟩
  | _ => simp [isWriteStep] at hwrite

/-- The operations outside reception that are no step of a write leave `rx_state` and `tx_phase`, and so the elements
are free after them too. -/
theorem exec_notWrite_withUnwritten {i : Instr} (hop : i.format = .opTag) (hreset : i ≠ .reset) (hrx : i ≠ .rxByte)
    (hwrite : isWriteStep i = false) (hstate : s.rxState ≠ .header) (htx : s.txPhase = .idle)
    (hstep : exec i s = .next t) :
    ∃ t', exec i (s.withUnwritten ty hdr txTy txLen) = .next t' ∧ SameButUnwritten t t' := by
  have hreassembly := (outsideStep_exec hop hreset hrx s t hstep).kept
  have hstate' : t.rxState = s.rxState := congrArg Reassembly.rxState hreassembly
  have htx' : t.txPhase = s.txPhase := effect_txPhase hwrite (effect_exec hop hreset hrx s t hstep)
  refine ⟨t.withUnwritten ty hdr txTy txLen, ?_,
    sameButUnwritten_idle ty txTy hdr txLen (hstate' ▸ hstate) (by simp [htx', htx])⟩
  rw [withUnwritten_eq_altered, withUnwritten_eq_altered]
  exact (commutes_exec_of_notWrite _ _ _ hop hreset hrx hwrite).next_eq hstep

end

/-- Settles O55: `RESET`, `RX_BYTE`, the steps of a write, and the other operations. -/
theorem nothingDependsOnUnspecifiedResetValues : Obligations.NothingDependsOnUnspecifiedResetValues := by
  intro i s t ty txTy hdr txLen hop hstate htx hstep
  have hheader : s.rxState ≠ .header := by obtain h | h := hstate <;> simp [h]
  have hgoes : ∃ t', exec i (s.withUnwritten ty hdr txTy txLen) = .next t' ∧ SameButUnwritten t t' := by
    by_cases hreset : i = .reset
    · subst hreset
      exact ⟨t, (exec_reset_withUnwritten ty txTy hdr txLen s).trans hstep, sameButUnwritten_refl t⟩
    by_cases hrx : i = .rxByte
    · subst hrx
      exact exec_rxByte_withUnwritten ty txTy hdr txLen hstate htx hstep
    cases hwrite : isWriteStep i with
    | true => exact exec_write_withUnwritten ty txTy hdr txLen hwrite hheader htx hstep
    | false => exact exec_notWrite_withUnwritten ty txTy hdr txLen hop hreset hrx hwrite hheader htx hstep
  obtain ⟨t', hstep', ty', txTy', hdr', txLen', rfl, htype, hlen⟩ := hgoes
  exact ⟨ty', txTy', hdr', txLen', hstep', htype, hlen⟩

end Sys2Proof.Machine
end

section
/-! PROOFS. The statements of spec/30_encoding.md about the encoding itself: the round trips of the script (R83, R85), the
rows of the type byte (R72, R84), the refusal of unused tags (R83), and the formats of headers and opcodes (R73 to R80). -/

namespace Sys2Proof

/-! ## A byte under a row's mask -/

/-- A row whose mask keeps the high bits fixes them, and leaves the low bits open. -/
theorem and_highMask_eq_iff {n k : Nat} {hi : BitVec n} {t : BitVec (n + k)} :
    t &&& (BitVec.allOnes n ++ 0#k) = hi ++ 0#k ↔ t.extractLsb' k n = hi := by
  have hmask : t &&& (BitVec.allOnes n ++ 0#k) = t.extractLsb' k n ++ 0#k := by
    conv_lhs => rw [← BitVec.extractLsb'_append_extractLsb' (x := t)]
    rw [BitVec.and_append, BitVec.and_allOnes, BitVec.and_zero]
  rw [hmask]
  refine ⟨fun heq => ?_, fun heq => by rw [heq]⟩
  simpa only [BitVec.extractLsb'_append_eq_left] using congrArg (BitVec.extractLsb' k n) heq

/-- A byte that such a row holds for is the fixed high bits followed by the open low bits. -/
theorem eq_append_of_and_highMask (n k : Nat) {hi : BitVec n} {t : BitVec (n + k)}
    (ht : t &&& (BitVec.allOnes n ++ 0#k) = hi ++ 0#k) : t = hi ++ t.extractLsb' 0 k := by
  rw [← and_highMask_eq_iff.1 ht, BitVec.extractLsb'_append_extractLsb']

theorem eq_of_and_fullMask {n : Nat} {t c : BitVec n} (ht : t &&& BitVec.allOnes n = c) : t = c := by
  rwa [BitVec.and_allOnes] at ht

/-! ## The script -/

/-- R83, R85: the bytes of an operation, with nothing after them, are read as that operation. -/
theorem decode_encode {i : Instr} (hop : i.format = .opTag) (hwf : i.wf = true) : decode (encode i) = .ok (i, []) := by
  cases i with
  | writeBegin ty len data =>
    exact parseWriteBegin_eq_ok.2 ⟨ty, len, data, rfl, by simpa [Instr.wf] using hwf, by rw [List.append_nil]⟩
  | reset | init | initSettle | terminate | writeByte | writeEnd | rxirqEnter | rxByte | rxirqExit | hostwakeFall
  | hostwakeExit | envRxArrive | envHostwakeEdge | unusedTag13 | unusedTag23 => rfl
  | unusedTag04 low | unusedTag08 low | unusedTag14 low | unusedTag18 low | unusedTag24 low | unusedTag28 low
  | unusedTag32 low | unusedTag34 low | unusedTag38 low | unusedTag42 low | unusedTag44 low | unusedTag48 low
  | unusedTag50 low | unusedTag60 low | unusedTag80 low =>
    clear hop hwf
    revert low
    decide
  | _ => cases hop

/-- Settles O1: an operation is read from its own bytes, and what follows them is left. -/
theorem decodeReadsBackEveryOperation : Obligations.DecodeReadsBackEveryOperation :=
  fun _ rest hop hwf => decode_append (decode_encode hop hwf) rest

theorem encode_of_oneByte {t c : Byte} {bytes rest : List Byte} {i j : Instr} (hp : oneByte j bytes = .ok (i, rest))
    (hj : encode j = [c]) (ht : t = c) : t :: bytes = encode i ++ rest := by
  obtain ⟨rfl, rfl⟩ := Prod.mk.inj (Except.ok.inj hp)
  rw [hj, ht, List.singleton_append]

theorem encode_of_parseWriteBegin {t : Byte} {bytes rest : List Byte} {i : Instr}
    (hp : parseWriteBegin bytes = .ok (i, rest)) (ht : t = 0x10) : t :: bytes = encode i ++ rest := by
  obtain ⟨ty, len, data, rfl, -, rfl⟩ := parseWriteBegin_eq_ok.1 hp
  rw [ht]
  rfl

theorem encode_of_parseRxArrive {t : Byte} {bytes rest : List Byte} {i : Instr}
    (hp : parseRxArrive bytes = .ok (i, rest)) (ht : t = 0x40) : t :: bytes = encode i ++ rest := by
  obtain ⟨b, rfl, rfl⟩ := parseRxArrive_eq_ok.1 hp
  rw [ht]
  rfl

/-- What a row reads behind a tag that it holds for is the encoding of what it gives. -/
theorem encode_of_parse {row : TagRow} (hrow : row ∈ opTagRows) {t : Byte} (ht : tagMatches t row = true)
    {bytes rest : List Byte} {i : Instr} (hp : row.parse t bytes = .ok (i, rest)) : t :: bytes = encode i ++ rest := by
  have hmask : t &&& row.mask = row.pattern := by simpa [tagMatches] using ht
  obtain hrow | hrow := List.mem_append.1 hrow
  · simp only [operationRows, List.mem_cons, List.not_mem_nil, or_false] at hrow
    rcases hrow with rfl | rfl | rfl | rfl | rfl | rfl | rfl | rfl | rfl | rfl | rfl | rfl | rfl | rfl <;>
      first
      | exact encode_of_oneByte hp rfl (eq_of_and_fullMask hmask)
      | exact encode_of_parseWriteBegin hp (eq_of_and_fullMask hmask)
      | exact encode_of_parseRxArrive hp (eq_of_and_fullMask hmask)
  · simp only [unusedTagRows, List.mem_cons, List.not_mem_nil, or_false] at hrow
    rcases hrow with rfl | rfl | rfl | rfl | rfl | rfl | rfl | rfl | rfl | rfl | rfl | rfl | rfl | rfl | rfl | rfl |
      rfl
    exacts [
      encode_of_oneByte hp rfl (eq_append_of_and_highMask 6 2 hmask),
      encode_of_oneByte hp rfl (eq_append_of_and_highMask 5 3 hmask),
      encode_of_oneByte hp rfl (eq_of_and_fullMask hmask),
      encode_of_oneByte hp rfl (eq_append_of_and_highMask 6 2 hmask),
      encode_of_oneByte hp rfl (eq_append_of_and_highMask 5 3 hmask),
      encode_of_oneByte hp rfl (eq_of_and_fullMask hmask),
      encode_of_oneByte hp rfl (eq_append_of_and_highMask 6 2 hmask),
      encode_of_oneByte hp rfl (eq_append_of_and_highMask 5 3 hmask),
      encode_of_oneByte hp rfl (eq_append_of_and_highMask 7 1 hmask),
      encode_of_oneByte hp rfl (eq_append_of_and_highMask 6 2 hmask),
      encode_of_oneByte hp rfl (eq_append_of_and_highMask 5 3 hmask),
      encode_of_oneByte hp rfl (eq_append_of_and_highMask 7 1 hmask),
      encode_of_oneByte hp rfl (eq_append_of_and_highMask 6 2 hmask),
      encode_of_oneByte hp rfl (eq_append_of_and_highMask 5 3 hmask),
      encode_of_oneByte hp rfl (eq_append_of_and_highMask 4 4 hmask),
      encode_of_oneByte hp rfl (eq_append_of_and_highMask 3 5 hmask),
      encode_of_oneByte hp rfl (eq_append_of_and_highMask 1 7 hmask)]

/-- Settles O2: the row found for the tag has read its own encoding. -/
theorem encodeWritesBackWhatWasRead : Obligations.EncodeWritesBackWhatWasRead := by
  intro bytes rest i hd
  refine ⟨?_, decode_wf hd⟩
  cases bytes with
  | nil => cases hd
  | cons t tl =>
    simp only [decode] at hd
    split at hd
    next row hrow => exact encode_of_parse (List.mem_of_find?_eq_some hrow) (List.find?_some hrow) hd
    next => cases hd

/-- Settles O4. -/
theorem sampleWordsDecodeAsWritten : Obligations.SampleWordsDecodeAsWritten :=
  ⟨rfl, rfl, rfl, rfl, rfl, rfl⟩

/-! ## The type byte -/

/-- R72: the type byte of a row is read as that row. -/
theorem decodeType_of_encodeType {i : Instr} {t : Byte} (ht : encodeType i = some t) : decodeType t = some i := by
  cases i with
  | h4Cmd | h4Acl | h4Evt | h4SyncInvalid | h4Invalid00 | h4Invalid05 =>
    obtain rfl := Option.some.inj ht
    rfl
  | h4Invalid06 low | h4Invalid08 low | h4Invalid10 low | h4Invalid20 low | h4Invalid40 low | h4Invalid80 low =>
    obtain rfl := Option.some.inj ht
    clear ht
    revert low
    decide
  | _ => cases ht

/-- A row that holds for a type byte has that type byte. -/
theorem encodeType_of_row {row : TypeRow} (hrow : row ∈ h4TypeRows) {t : Byte} (ht : typeMatches t row = true) :
    encodeType (row.instr t) = some t := by
  have hmask : t &&& row.mask = row.pattern := by simpa [typeMatches] using ht
  simp only [h4TypeRows, List.mem_cons, List.not_mem_nil, or_false] at hrow
  rcases hrow with rfl | rfl | rfl | rfl | rfl | rfl | rfl | rfl | rfl | rfl | rfl | rfl
  iterate 6 exact congrArg some (eq_of_and_fullMask hmask).symm
  · exact congrArg some (eq_append_of_and_highMask 7 1 hmask).symm
  · exact congrArg some (eq_append_of_and_highMask 5 3 hmask).symm
  · exact congrArg some (eq_append_of_and_highMask 4 4 hmask).symm
  · exact congrArg some (eq_append_of_and_highMask 3 5 hmask).symm
  · exact congrArg some (eq_append_of_and_highMask 2 6 hmask).symm
  · exact congrArg some (eq_append_of_and_highMask 1 7 hmask).symm

theorem encodeType_of_decodeType {i : Instr} {t : Byte} (ht : decodeType t = some i) : encodeType i = some t := by
  obtain ⟨row, hrow, rfl⟩ := Option.map_eq_some_iff.1 ht
  exact encodeType_of_row (List.mem_of_find?_eq_some hrow) (List.find?_some hrow)

/-- R84: the rows of each table cover the 256 values of a byte without overlap. -/
theorem rows_match_once : ∀ t : Byte,
    (opTagRows.filter (tagMatches t)).length = 1 ∧ (h4TypeRows.filter (typeMatches t)).length = 1 := by decide

/-- Settles O3. -/
theorem typeRowsAndTagRowsCoverEveryByteOnce : Obligations.TypeRowsAndTagRowsCoverEveryByteOnce :=
  ⟨fun _ _ => ⟨decodeType_of_encodeType, encodeType_of_decodeType⟩, rows_match_once⟩

end Sys2Proof

namespace Sys2Proof.Machine

/-! ## Unused tags -/

/-- Settles O7: the rows with no agent are the unused tags, and each refuses with the tag it is encoded as. -/
theorem unusedTagsAreRefused : Obligations.UnusedTagsAreRefused := by
  intro i s hagent
  cases i with
  | unusedTag04 | unusedTag08 | unusedTag13 | unusedTag14 | unusedTag18 | unusedTag23 | unusedTag24 | unusedTag28
  | unusedTag32 | unusedTag34 | unusedTag38 | unusedTag42 | unusedTag44 | unusedTag48 | unusedTag50 | unusedTag60
  | unusedTag80 => exact ⟨_, rfl, rfl⟩
  | _ => cases hagent

/-! ## Header formats and opcodes -/

theorem validType_iff (t : Byte) : validType t = true ↔ t = 0x01 ∨ t = 0x02 ∨ t = 0x04 := by
  unfold validType packetType?
  split_ifs with hcmd hacl hevt
  · exact iff_of_true rfl (.inl hcmd)
  · exact iff_of_true rfl (.inr (.inl hacl))
  · exact iff_of_true rfl (.inr (.inr hevt))
  · exact iff_of_false nofun fun h => h.elim hcmd fun h => h.elim hacl hevt

/-- Settles O43. -/
theorem headerFormatsOfTheThreeTypes : Obligations.HeaderFormatsOfTheThreeTypes :=
  ⟨validType_iff, fun _ =>
    ⟨⟨.command, rfl, rfl, rfl, rfl⟩, ⟨.aclData, rfl, rfl, rfl, rfl⟩, ⟨.event, rfl, rfl, rfl, rfl⟩⟩⟩

/-- R80: an opcode is its group followed by its command. -/
theorem ogf_append_ocf (op : Half) : ogf op ++ ocf op = op := BitVec.extractLsb'_append_extractLsb' (w := 6) (len := 10)

theorem vendorOpcode_iff (op : Half) : vendorOpcode op = true ↔ ogf op = 0x3F#6 := beq_iff_eq

/-- Settles O44: the mask 0xFC00 keeps the group. -/
theorem opcodeFieldsAndVendorTest : Obligations.OpcodeFieldsAndVendorTest := fun op =>
  ⟨(ogf_append_ocf op).symm, vendorOpcode_iff op,
    (vendorOpcode_iff op).trans (and_highMask_eq_iff (n := 6) (k := 10) (hi := 0x3F#6)).symm⟩

end Sys2Proof.Machine
end

section
/-! PROOFS. `RX_BYTE` and its rows (R84, R112): what `rx_step` is in the states that each row selects, that `RX_BYTE` is the
row of format rx_sel its state selects and the row of format h4_type of its frame, and that the Complete resolution is
one of its two rows. -/

namespace Sys2Proof.Machine

variable {s : State}

/-! ## Sequencing -/

/-- Two continuations that agree where they are reached. -/
theorem andThen_congr {r : Result} {f g : State → Result} (hfg : ∀ t, r = .next t → f t = g t) :
    andThen r f = andThen r g := by
  cases r with
  | next t => exact hfg t rfl
  | fault | refused => rfl

theorem andThen_assoc (r : Result) (f g : State → Result) :
    andThen (andThen r f) g = andThen r fun t => andThen (f t) g := by
  cases r <;> rfl

theorem andThen_eq_self {r : Result} {f : State → Result} (hf : ∀ t, r = .next t → f t = .next t) :
    andThen r f = r := by
  cases r with
  | next t => exact hf t rfl
  | fault | refused => rfl

/-! ## What `rx_step` is, case by case -/

theorem rxStep_of_idle (b : Byte) (hstate : s.rxState = .idle) : rxStep b s = .next (idleByte b s) := by
  rw [rxStep, rxCase, hstate]
  exact resolveComplete_of_ne nofun

theorem rxStep_of_error (b : Byte) (hstate : s.rxState = .error) : rxStep b s = .next (errorByte s) := by
  rw [rxStep, rxCase, hstate]
  exact resolveComplete_of_ne nofun

theorem rxStep_of_badType (b : Byte) (hstate : s.rxState = .header) (htype : packetType? s.pktType = none) :
    rxStep b s = .next (badType s) := by
  simp only [rxStep, rxCase, hstate, htype, andThen_next]
  exact resolveComplete_of_ne nofun

/-- R101: a stored byte advances the cursor and leaves `rx_state`. -/
theorem storeHeaderByte_next {t : State} {p : PacketType} {b : Byte} (hcursor : s.hdrCursor.toNat < p.hdrLen)
    (hstore : storeHeaderByte b s = .next t) :
    t.hdrCursor.toNat = s.hdrCursor.toNat + 1 ∧ t.rxState = s.rxState := by
  obtain ⟨hdr, -, rfl⟩ := storeHeaderByte_eq_next.1 hstore
  exact ⟨hdrCursor_succ hcursor (hdrLen_bounds p).2, rfl⟩

/-- R103: a byte before the header's last is stored, and nothing else. -/
theorem rxStep_of_headerPartial {p : PacketType} (b : Byte) (hstate : s.rxState = .header)
    (htype : packetType? s.pktType = some p) (hcursor : s.hdrCursor.toNat + 1 < p.hdrLen) :
    rxStep b s = storeHeaderByte b s := by
  simp only [rxStep, rxCase, hstate, htype, headerByte, andThen_assoc]
  refine andThen_eq_self fun t hstore => ?_
  obtain ⟨hsucc, hrx⟩ := storeHeaderByte_next (p := p) (by omega) hstore
  rw [if_neg (by omega), andThen_next, resolveComplete_of_ne (by simp [hrx, hstate])]

/-- R104: the header's last byte is stored, and the header is complete. -/
theorem rxStep_of_headerComplete {p : PacketType} (b : Byte) (hstate : s.rxState = .header)
    (htype : packetType? s.pktType = some p) (hcursor : s.hdrCursor.toNat + 1 = p.hdrLen) :
    rxStep b s = andThen (andThen (storeHeaderByte b s) (headerComplete p)) resolveComplete := by
  simp only [rxStep, rxCase, hstate, htype, headerByte]
  refine congrArg (andThen · resolveComplete) (andThen_congr fun t hstore => ?_)
  obtain ⟨hsucc, -⟩ := storeHeaderByte_next (p := p) (by omega) hstore
  rw [if_pos (by omega)]

/-- R110: where a payload byte leaves `rx_state`. -/
theorem dataByte_next_rxState {t : State} {b : Byte} (hdata : dataByte b s = .next t) :
    t.rxState = if s.countdown - 1 = 0 then .complete else .data := by
  obtain ⟨h, m, -, -, -, rfl⟩ := dataByte_eq_next.1 hdata
  rfl

theorem rxStep_of_data (b : Byte) (hstate : s.rxState = .data) :
    rxStep b s = andThen (dataByte b s) resolveComplete := by
  rw [rxStep, rxCase, hstate]

theorem rxStep_of_dataMore (b : Byte) (hstate : s.rxState = .data) (hmore : 1 < s.countdown.toNat) :
    rxStep b s = dataByte b s := by
  have hne : s.countdown - 1 ≠ 0 := by bv_omega
  rw [rxStep_of_data b hstate]
  refine andThen_eq_self fun t hdata => resolveComplete_of_ne ?_
  rw [dataByte_next_rxState hdata, if_neg hne]
  nofun

theorem rxStep_of_dataLast (b : Byte) (hstate : s.rxState = .data) (hlast : s.countdown = 1) :
    rxStep b s = andThen (dataByte b s) complete := by
  rw [rxStep_of_data b hstate]
  refine andThen_congr fun t hdata => resolveComplete_of_complete ?_
  rw [dataByte_next_rxState hdata, hlast]
  rfl

/-! ## The selected row -/

/-- `RX_BYTE` with a byte to take. -/
theorem exec_rxByte_of_cons {b : Byte} {rest : List Byte} (hphase : s.isrPhase ≠ .none) (hfifo : s.rxFifo = b :: rest) :
    exec .rxByte s = rxStep b { s with rxFifo := rest } := by
  simp only [exec, execRxByte, takeRxByte_of_cons hphase hfifo]

theorem rxSelected_of_cons {case : Byte → State → Option Result} {b : Byte} {rest : List Byte}
    (hphase : s.isrPhase ≠ .none) (hfifo : s.rxFifo = b :: rest) :
    rxSelected case s = (case b { s with rxFifo := rest }).getD (noStep s) := by
  simp only [rxSelected, takeRxByte_of_cons hphase hfifo]

/-- `RX_BYTE` is a row whose case is selected and answers what `rx_step` does. -/
theorem exec_rxByte_eq_rxSelected {case : Byte → State → Option Result}
    (hcase : ∀ b rest, case b { s with rxFifo := rest } = some (rxStep b { s with rxFifo := rest })) :
    exec .rxByte s = rxSelected case s := by
  simp only [exec, execRxByte, rxSelected]
  split
  next b s1 htake =>
    obtain ⟨-, rest, -, rfl⟩ := takeRxByte_eq_some.1 htake
    rw [hcase, Option.getD_some]
  next => rfl

/-- R84, log 13: `RX_BYTE` is the row of format rx_sel that its state selects. -/
theorem exec_rxByte_eq_row {i : Instr} (hrow : s.rxRow? = some i) : exec .rxByte s = exec i s := by
  unfold State.rxRow? at hrow
  cases hstate : s.rxState with
  | idle =>
    obtain rfl : Instr.rxByteIdle = i := by simpa [hstate] using hrow
    exact exec_rxByte_eq_rxSelected fun b _ => by simp [hstate, rxStep_of_idle]
  | header =>
    cases htype : packetType? s.pktType with
    | none =>
      obtain rfl : Instr.rxByteHeaderBadtype = i := by simpa [hstate, htype] using hrow
      exact exec_rxByte_eq_rxSelected fun b _ => by simp [hstate, htype, validType, rxStep_of_badType]
    | some p =>
      simp only [hstate, htype] at hrow
      split_ifs at hrow with hpartial hcomplete
      · obtain rfl := Option.some.inj hrow
        exact exec_rxByte_eq_rxSelected fun b _ => by
          simp [State.headerType?, hstate, htype, hpartial, rxStep_of_headerPartial]
      · obtain rfl := Option.some.inj hrow
        exact exec_rxByte_eq_rxSelected fun b _ => by
          simp [State.headerType?, hstate, htype, hcomplete, rxStep_of_headerComplete]
  | data =>
    simp only [hstate] at hrow
    split_ifs at hrow with hmore hlast
    · obtain rfl := Option.some.inj hrow
      exact exec_rxByte_eq_rxSelected fun b _ => by simp [hstate, hmore, rxStep_of_dataMore]
    · obtain rfl := Option.some.inj hrow
      exact exec_rxByte_eq_rxSelected fun b _ => by simp [hstate, hlast, rxStep_of_dataLast]
  | error =>
    obtain rfl : Instr.rxByteError = i := by simpa [hstate] using hrow
    exact exec_rxByte_eq_rxSelected fun b _ => by simp [hstate, rxStep_of_error]
  | complete => simp [hstate] at hrow

/-- R27, R28: under the invariant the table has a row for the next byte. -/
theorem rxRow?_of_inv (hinv : ReassemblerInv s) : ∃ i, s.rxRow? = some i ∧ i.format = .rxSel := by
  unfold State.rxRow?
  cases hstate : s.rxState with
  | idle | error => exact ⟨_, rfl, rfl⟩
  | header =>
    dsimp only
    have hcursor := (hinv.header hstate).2
    split
    next p htype =>
      have hlt := (headerCursorOk_of_type htype).1 hcursor
      split_ifs with hpartial hcomplete
      · exact ⟨_, rfl, rfl⟩
      · exact ⟨_, rfl, rfl⟩
      · omega
    next => exact ⟨_, rfl, rfl⟩
  | data =>
    dsimp only
    obtain ⟨h, p, hdata⟩ := hinv.data hstate
    have hremaining := hdata.remaining
    split_ifs with hmore hlast
    · exact ⟨_, rfl, rfl⟩
    · exact ⟨_, rfl, rfl⟩
    · exact absurd (BitVec.eq_of_toNat_eq (show s.countdown.toNat = 1 by omega)) hlast
  | complete => exact absurd hstate hinv.notComplete

/-! ## The rows of the Complete resolution -/

/-- R130, R136, log 14: the packet held decides which of the two rows the resolution is. -/
theorem complete_eq_row {h : Nat} {bytes : List Byte} (hstate : s.rxState = .complete) (hheld : s.pktBuf = some h)
    (hbytes : s.packetBytes h = some bytes) :
    complete s = exec (if isVendorCc s.pktType bytes then .completeVendorCc else .completePlain) s := by
  cases hvendor : vendorCc? s.pktType bytes with
  | none =>
    simp [complete, exec, execCompletePlain, completionEvents, isVendorCc, hstate, hheld, hbytes, hvendor]
  | some v =>
    simp [complete, exec, execCompleteVendorCc, completionEvents, isVendorCc, hstate, hheld, hbytes, hvendor]

/-- R137: with no buffer it is the plain row. -/
theorem complete_eq_plain_of_noBuffer (hstate : s.rxState = .complete) (hnone : s.pktBuf = none) :
    complete s = exec .completePlain s := by
  simp only [complete, exec, execCompletePlain, hstate, hnone, if_true]

/-- Settles O41. -/
theorem rxByteIsItsSelectedRow : Obligations.RxByteIsItsSelectedRow :=
  ⟨fun _ _ => exec_rxByte_eq_row, fun _ => rxRow?_of_inv, fun _ _ _ => complete_eq_row,
    fun _ => complete_eq_plain_of_noBuffer⟩

/-! ## The rows of the type byte -/

/-- Log 12: each row of format h4_type is the `RX_BYTE` step of a frame of its type byte. -/
theorem exec_eq_rxOfFrame {i : Instr} {t : Byte} (ht : encodeType i = some t) (s : State) :
    exec i s = rxOfFrame t s := by
  cases i with
  | h4Cmd | h4Acl | h4Evt | h4SyncInvalid | h4Invalid00 | h4Invalid05 | h4Invalid06 | h4Invalid08 | h4Invalid10
  | h4Invalid20 | h4Invalid40 | h4Invalid80 =>
    obtain rfl := Option.some.inj ht
    rfl
  | _ => cases ht

/-- R84, log 12: `RX_BYTE` is the row of the frame that the received byte belongs to. -/
theorem exec_rxByte_eq_frameRow {b t : Byte} {rest : List Byte} {i : Instr} (hphase : s.isrPhase ≠ .none)
    (hfifo : s.rxFifo = b :: rest) (hframe : s.frameType? b = some t) (ht : encodeType i = some t) :
    exec .rxByte s = exec i s := by
  have hframe' : State.frameType? b { s with rxFifo := rest } = some t := hframe
  rw [exec_eq_rxOfFrame ht, rxOfFrame, rxSelected_of_cons hphase hfifo, if_pos hframe', Option.getD_some,
    exec_rxByte_of_cons hphase hfifo]

/-- Settles O42. -/
theorem rxByteIsItsFrameRow : Obligations.RxByteIsItsFrameRow :=
  fun _ _ _ _ _ hphase hfifo hframe ht =>
    exec_rxByte_eq_frameRow hphase hfifo hframe (encodeType_of_decodeType ht)

/-- Settles O40: each row is `RX_BYTE` there, which takes the type byte in `IDLE` and refuses a bad type in `HEADER`. -/
theorem frameRowsTakeTheirTypeByte : Obligations.FrameRowsTakeTheirTypeByte := by
  constructor
  · intro i t s rest ht hphase hfifo hstate
    rw [← exec_rxByte_eq_frameRow hphase hfifo (by simp [State.frameType?, hstate]) ht]
    exact exec_rxByte_of_idle hphase hfifo hstate
  · intro i t b s rest ht hvalid hphase hfifo hstate htype
    rw [← exec_rxByte_eq_frameRow hphase hfifo (by simp [State.frameType?, hstate, htype]) ht,
      exec_rxByte_of_cons hphase hfifo]
    exact rxStep_of_badType b hstate (by simpa [validType, htype] using hvalid)

end Sys2Proof.Machine
end

section
/-! PROOFS. Framing correctness (R70, R71, R107, R134): the bytes of one frame, taken one by one, go through the type byte,
the header and the payload, and are delivered as one packet. -/

namespace Sys2Proof.Machine

variable {s : State}

/-! ## Runs of operations -/

theorem runOps_append (is js : List Instr) (s : State) : runOps (is ++ js) s = andThen (runOps is s) (runOps js) := by
  induction is generalizing s with
  | nil => rfl
  | cons i is ih =>
    simp only [List.cons_append, runOps, andThen_assoc]
    exact andThen_congr fun t _ => ih t

/-- However many bytes are received, what is besides reception stays. -/
theorem receptionStep_runOps (n : Nat) (s : State) :
    EachNext (ReceptionStep s) (runOps (List.replicate n .rxByte) s) := by
  induction n generalizing s with
  | zero => exact receptionStep_noStep
  | succ n ih => exact receptionStep_andThen (receptionStep_rxByte s) ih

/-! ## The header -/

/-- R51: a byte stored at an index stands behind the bytes below it. -/
theorem hdrBuf_write_take {hdr : HeaderBuffer} {i : Nat} (b : Byte) (hi : i < 4) :
    ∃ hdr', hdr.write i b = some hdr' ∧ hdr'.bytes.take (i + 1) = hdr.bytes.take i ++ [b] := by
  obtain ⟨hdr', hwrite, hbytes⟩ := hdrBuf_write_bytes (hdr := hdr) b hi
  refine ⟨hdr', hwrite, ?_⟩
  rw [hbytes, List.take_add_one, List.take_set_of_le (Nat.le_refl i), List.getElem?_set_self hi]
  rfl

/-- The state in `HEADER` with more of the header received and `rest` still to be received. -/
def State.withHeader (hdr : HeaderBuffer) (cursor : BitVec 3) (rest : List Byte) (s : State) : State :=
  { s with rxFifo := rest, hdrBuf := hdr, hdrCursor := cursor }

/-- R101: a header byte is stored behind the ones received before it. -/
theorem storeHeaderByte_withHeader {p : PacketType} (b : Byte) (rest : List Byte)
    (hcursor : s.hdrCursor.toNat < p.hdrLen) :
    ∃ hdr cursor, storeHeaderByte b { s with rxFifo := rest } = .next (s.withHeader hdr cursor rest) ∧
      cursor.toNat = s.hdrCursor.toNat + 1 ∧
      hdr.bytes.take cursor.toNat = s.hdrBuf.bytes.take s.hdrCursor.toNat ++ [b] := by
  have hlen := hdrLen_bounds p
  have hsucc := hdrCursor_succ hcursor hlen.2
  obtain ⟨hdr, hwrite, hbytes⟩ := hdrBuf_write_take (hdr := s.hdrBuf) b (i := s.hdrCursor.toNat) (by omega)
  exact ⟨hdr, s.hdrCursor + 1, storeHeaderByte_eq_next.2 ⟨hdr, hwrite, rfl⟩, hsucc, hsucc ▸ hbytes⟩

/-- R101, R103: header bytes before the last are stored one behind the other. -/
theorem runOps_headerBytes {p : PacketType} {bs rest : List Byte} (hphase : s.isrPhase ≠ .none)
    (hstate : s.rxState = .header) (htype : packetType? s.pktType = some p) (hfifo : s.rxFifo = bs ++ rest)
    (hcursor : s.hdrCursor.toNat + bs.length < p.hdrLen) :
    ∃ hdr cursor, runOps (List.replicate bs.length .rxByte) s = .next (s.withHeader hdr cursor rest) ∧
      cursor.toNat = s.hdrCursor.toNat + bs.length ∧
      hdr.bytes.take cursor.toNat = s.hdrBuf.bytes.take s.hdrCursor.toNat ++ bs := by
  induction bs generalizing s with
  | nil =>
    obtain rfl : s.rxFifo = rest := hfifo
    exact ⟨s.hdrBuf, s.hdrCursor, rfl, rfl, (List.append_nil _).symm⟩
  | cons b bs ih =>
    rw [List.length_cons] at hcursor
    obtain ⟨hdr1, cursor1, hstore, hsucc, hbytes1⟩ :=
      storeHeaderByte_withHeader (p := p) b (bs ++ rest) (s := s) (by omega)
    have hfirst : exec .rxByte s = .next (s.withHeader hdr1 cursor1 (bs ++ rest)) := by
      rw [exec_rxByte_of_cons hphase hfifo, ← hstore]
      exact rxStep_of_headerPartial (p := p) b hstate htype (by dsimp only; omega)
    obtain ⟨hdr, cursor, hrun, hcount, hbytes⟩ :=
      ih (s := s.withHeader hdr1 cursor1 (bs ++ rest)) hphase hstate htype rfl
        (by simp only [State.withHeader]; omega)
    simp only [State.withHeader] at hcount hbytes
    refine ⟨hdr, cursor, ?_, ?_, ?_⟩
    · rw [List.length_cons, List.replicate_succ, runOps, hfirst, andThen_next, hrun]
      rfl
    · rw [hcount, hsucc, List.length_cons]
      omega
    · rw [hbytes, hbytes1, List.append_assoc, List.singleton_append]

/-- R79: the length field lies within the header. -/
theorem lenField_eq_of_take_eq {p : PacketType} {hdr hdr' : HeaderBuffer}
    (heq : hdr.bytes.take p.hdrLen = hdr'.bytes.take p.hdrLen) : p.lenField hdr = p.lenField hdr' := by
  obtain ⟨b0, b1, b2, b3⟩ := hdr
  obtain ⟨c0, c1, c2, c3⟩ := hdr'
  cases p
  all_goals
    simp only [PacketType.hdrLen, Config.hdrLenCmd, Config.hdrLenAcl, Config.hdrLenEvt, HeaderBuffer.bytes,
      List.take_succ_cons, List.take_zero, List.cons.injEq] at heq
    simp only [PacketType.lenField, heq]

/-! ## The payload -/

/-- The held buffer has the bytes `got` of its packet, and `left` more are due: the whole packet is to be handed over, or
its payload goes on. -/
structure Filling (h : Nat) (got : List Byte) (left : Nat) (s : State) : Prop where
  state : s.rxState = if left = 0 then .complete else .data
  held : s.pktBuf = some h
  owned : Memory.size? s.mem h = some s.pktSize
  total : s.pktSize.toNat = got.length + left
  cursor : s.wrCursor.toNat = got.length
  countdown : s.countdown.toNat = left
  filled : Memory.readList s.mem h 0 got.length = some got

/-- R104 to R106: what the header's last byte leaves of `s` with a granted allocation: a buffer with the header in it. -/
structure HeaderTaken (p : PacketType) (hdr : HeaderBuffer) (h : Nat) (s t : State) : Prop where
  filling : Filling h (hdr.bytes.take p.hdrLen) (p.lenField hdr).toNat t
  phase : t.isrPhase = s.isrPhase
  typed : t.pktType = s.pktType
  events : t.trace = s.trace ++ [.alloc p.pool (p.bufferSize (p.lenField hdr)) (.ok h)]
  others : ∀ h' off, h' ≠ h → Memory.read t.mem h' off = Memory.read s.mem h' off

theorem headerGranted_taken {p : PacketType} {h : Nat} (hfresh : Memory.size? s.mem h = none) :
    ∃ t, headerGranted p h s = .next t ∧ HeaderTaken p s.hdrBuf h s t ∧ t.rxFifo = s.rxFifo := by
  have hlen := hdrLen_bounds p
  obtain ⟨m, hgranted, -, howned, hread, -, hothers, -⟩ := headerGranted_eq (p := p) hfresh
  refine ⟨_, hgranted, ⟨?_, by simp, by simp, by simp, hothers⟩, by simp⟩
  exact {
    state := if_congr (BitVec.toNat_inj (y := 0)).symm rfl rfl
    held := rfl
    owned := howned
    total := by rw [hdrBytes_take_length]; exact bufferSize_toNat _ p
    cursor := by
      rw [hdrBytes_take_length, BitVec.toNat_ofNat]
      omega
    countdown := rfl
    filled := readList_eq_some.2 ⟨rfl, fun i hi => by
      rw [hdrBytes_take_length] at hi
      rw [Nat.zero_add]
      exact hread i hi⟩ }

/-- The header's last byte, and then the test for a packet without payload. -/
theorem exec_rxByte_headerLast {p : PacketType} {hdr : HeaderBuffer} {h : Nat} {b : Byte} {rest : List Byte}
    (hphase : s.isrPhase ≠ .none) (hfifo : s.rxFifo = b :: rest) (hstate : s.rxState = .header)
    (htype : packetType? s.pktType = some p) (hcursor : s.hdrCursor.toNat + 1 = p.hdrLen)
    (hhdr : hdr.bytes.take p.hdrLen = s.hdrBuf.bytes.take s.hdrCursor.toNat ++ [b]) (halloc : s.allocAnswer = .ok h) :
    ∃ t, exec .rxByte s = resolveComplete t ∧ HeaderTaken p hdr h s t ∧ t.rxFifo = rest := by
  obtain ⟨hdr1, cursor, hstore, hsucc, hbytes⟩ := storeHeaderByte_withHeader (s := s) (p := p) b rest (by omega)
  have htake : hdr1.bytes.take p.hdrLen = hdr.bytes.take p.hdrLen := by rw [hhdr, ← hbytes, hsucc, hcursor]
  have halloc' : (s.withHeader hdr1 cursor rest).allocAnswer = .ok h := halloc
  obtain ⟨t, hgranted, ⟨hfilling, hphase', htype', hevents, hothers⟩, hfifo'⟩ :=
    headerGranted_taken (p := p) (allocAnswer_fresh halloc')
  have hstep : exec .rxByte s = resolveComplete t := by
    rw [exec_rxByte_of_cons hphase hfifo,
      rxStep_of_headerComplete (s := { s with rxFifo := rest }) b hstate htype hcursor, hstore, andThen_next,
      headerComplete, halloc']
    exact congrArg (andThen · resolveComplete) hgranted
  have hfield : p.lenField hdr1 = p.lenField hdr := lenField_eq_of_take_eq htake
  refine ⟨t, hstep, ⟨?_, hphase', htype', ?_, hothers⟩, hfifo'⟩
  · rw [← htake, ← hfield]
    exact hfilling
  · rw [← hfield]
    exact hevents

/-- What a payload byte leaves of `s`. -/
structure PayloadTaken (h : Nat) (got : List Byte) (left : Nat) (s t : State) : Prop where
  filling : Filling h got left t
  phase : t.isrPhase = s.isrPhase
  typed : t.pktType = s.pktType
  fifo : t.rxFifo = s.rxFifo
  events : t.trace = s.trace
  others : ∀ h' off, h' ≠ h → Memory.read t.mem h' off = Memory.read s.mem h' off

theorem readList_concat {m : Memory} {h : Nat} {bs : List Byte} {b : Byte}
    (hbs : Memory.readList m h 0 bs.length = some bs) (hb : Memory.read m h bs.length = some b) :
    Memory.readList m h 0 (bs ++ [b]).length = some (bs ++ [b]) := by
  obtain ⟨-, hread⟩ := readList_eq_some.1 hbs
  refine readList_eq_some.2 ⟨rfl, fun i hi => ?_⟩
  rw [List.length_append, List.length_singleton] at hi
  obtain rfl | hlt := (Nat.lt_succ_iff_lt_or_eq.1 hi).symm
  · rw [Nat.zero_add, List.getElem?_concat_length, hb]
  · rw [List.getElem?_append_left hlt, hread i hlt]

theorem readList_congr {m m' : Memory} {h off n : Nat}
    (hread : ∀ i, i < n → Memory.read m' h (off + i) = Memory.read m h (off + i)) {bs : List Byte}
    (hbs : Memory.readList m h off n = some bs) : Memory.readList m' h off n = some bs := by
  obtain ⟨hlength, hbytes⟩ := readList_eq_some.1 hbs
  exact readList_eq_some.2 ⟨hlength, fun i hi => (hread i hi).trans (hbytes i hi)⟩

/-- R110: a payload byte goes behind the bytes before it. -/
theorem dataByte_taken {h n : Nat} {got : List Byte} (b : Byte) (hfill : Filling h got (n + 1) s) :
    ∃ t, dataByte b s = .next t ∧ PayloadTaken h (got ++ [b]) n s t := by
  obtain ⟨-, hheld, howned, htotal, hcursor, hcount, hfilled⟩ := hfill
  obtain ⟨m, hwrite⟩ := write_isSome (off := s.wrCursor.toNat) b howned (by omega)
  obtain ⟨-, hread, hothers, hsize⟩ := write_spec hwrite
  have hsizeLt := s.pktSize.isLt
  have hne : s.countdown ≠ 0 := by bv_omega
  have hdown : (s.countdown - 1).toNat = n := by bv_omega
  have hup : (s.wrCursor + 1).toNat = got.length + 1 := by bv_omega
  refine ⟨_, dataByte_eq_next.2 ⟨h, m, hheld, hne, hwrite, rfl⟩, ?_, rfl, rfl, rfl, rfl,
    fun h' off hh' => hothers h' off (by simp [hh'])⟩
  have hbefore : Memory.readList m h 0 got.length = some got :=
    readList_congr (fun i hi => hothers h (0 + i) (by simp; omega)) hfilled
  rw [hcursor] at hread
  exact {
    state := if_congr ((BitVec.toNat_inj (y := 0)).symm.trans (by rw [hdown]; rfl)) rfl rfl
    held := hheld
    owned := (hsize h).trans howned
    total := by rw [List.length_append, List.length_singleton, htotal]; omega
    cursor := by rw [List.length_append, List.length_singleton, hup]
    countdown := hdown
    filled := readList_concat hbefore hread }

/-- What handing over the packet `bytes` in the buffer `h` leaves, with `rest` still to be received. -/
structure HandedOver (h : Nat) (bytes rest : List Byte) (s t : State) : Prop where
  state : t.rxState = .idle
  released : t.pktBuf = none
  fifo : t.rxFifo = rest
  events : t.trace = s.trace ++ completionEvents s.pktType bytes
  buffer : ∀ off, Memory.read t.mem h off = none
  others : ∀ h' off, h' ≠ h → Memory.read t.mem h' off = Memory.read s.mem h' off

/-- R134: a filled buffer is handed over. -/
theorem complete_filling {h : Nat} {got : List Byte} (hfill : Filling h got 0 s) :
    ∃ t, complete s = .next t ∧ HandedOver h got s.rxFifo s t := by
  have hbytes : s.packetBytes h = some got := by
    rw [State.packetBytes, hfill.total]
    exact hfill.filled
  exact ⟨_, complete_eq_next.2 (.inr ⟨h, got, hfill.held, hbytes, rfl⟩), {
    state := rfl
    released := rfl
    fifo := rfl
    events := rfl
    buffer := fun off => by simp [State.finishPacket, read_release]
    others := fun h' off hh' => by simp [State.finishPacket, read_release, hh'] }⟩

/-- R110, R112, R134: the payload fills the buffer, and after its last byte the packet is handed over. -/
theorem runOps_payload {h : Nat} {got payload rest : List Byte} (hphase : s.isrPhase ≠ .none)
    (hfill : Filling h got payload.length s) (hfifo : s.rxFifo = payload ++ rest) :
    ∃ t, andThen (resolveComplete s) (runOps (List.replicate payload.length .rxByte)) = .next t ∧
      HandedOver h (got ++ payload) rest s t := by
  induction payload generalizing s got with
  | nil =>
    obtain rfl : s.rxFifo = rest := hfifo
    obtain ⟨t, hcomplete, hover⟩ := complete_filling hfill
    refine ⟨t, ?_, ?_⟩
    · rw [resolveComplete_of_complete hfill.state, hcomplete]
      rfl
    · rw [List.append_nil]
      exact hover
  | cons b payload ih =>
    rw [List.cons_append] at hfifo
    have hfill' : Filling h got (payload.length + 1) { s with rxFifo := payload ++ rest } :=
      ⟨hfill.state, hfill.held, hfill.owned, hfill.total, hfill.cursor, hfill.countdown, hfill.filled⟩
    obtain ⟨s1, hdata, hfill1, hphase1, htype1, hfifo1, htrace1, hothers1⟩ := dataByte_taken b hfill'
    obtain ⟨t, hrun, hover⟩ := ih (by rw [hphase1]; exact hphase) hfill1 hfifo1
    have hstate : s.rxState = .data := hfill.state
    have hfirst : exec .rxByte s = resolveComplete s1 := by
      rw [exec_rxByte_of_cons hphase hfifo, rxStep_of_data (s := { s with rxFifo := payload ++ rest }) b hstate]
      exact congrArg (andThen · resolveComplete) hdata
    refine ⟨t, ?_, ?_⟩
    · rw [resolveComplete_of_ne (by rw [hstate]; nofun), andThen_next, List.length_cons, List.replicate_succ, runOps,
        hfirst, hrun]
    · exact {
        state := hover.state
        released := hover.released
        fifo := hover.fifo
        events := by rw [hover.events, htrace1, htype1, List.append_assoc, List.singleton_append]
        buffer := hover.buffer
        others := fun h' off hh' => (hover.others h' off hh').trans (hothers1 h' off hh') }

/-! ## The frame -/

/-- The header is its first bytes and its last one. -/
theorem hdrBytes_take_eq_concat (hdr : HeaderBuffer) (p : PacketType) :
    ∃ init b, hdr.bytes.take p.hdrLen = init ++ [b] ∧ init.length + 1 = p.hdrLen := by
  have hlength := hdrBytes_take_length hdr p
  obtain hnil | ⟨init, b, hconcat⟩ := List.eq_nil_or_concat' (hdr.bytes.take p.hdrLen)
  · have hlen := hdrLen_bounds p
    rw [hnil, List.length_nil] at hlength
    omega
  · exact ⟨init, b, hconcat, by simpa [hconcat] using hlength⟩

/-- R101 to R106: the bytes of a header, from its first to its last. -/
theorem runOps_header {p : PacketType} {hdr : HeaderBuffer} {h : Nat} {rest : List Byte} (hphase : s.isrPhase ≠ .none)
    (hfifo : s.rxFifo = hdr.bytes.take p.hdrLen ++ rest) (hstate : s.rxState = .header)
    (htype : packetType? s.pktType = some p) (hcursor : s.hdrCursor.toNat = 0) (halloc : s.allocAnswer = .ok h) :
    ∃ t, runOps (List.replicate p.hdrLen .rxByte) s = resolveComplete t ∧ HeaderTaken p hdr h s t ∧
      t.rxFifo = rest := by
  obtain ⟨init, b, hheader, hinit⟩ := hdrBytes_take_eq_concat hdr p
  rw [hheader, List.append_assoc, List.singleton_append] at hfifo
  obtain ⟨hdr1, cursor, hpartial, hcount, hbytes⟩ :=
    runOps_headerBytes (p := p) hphase hstate htype hfifo (by omega)
  rw [hcursor, Nat.zero_add] at hcount
  rw [hcursor, List.take_zero, List.nil_append] at hbytes
  obtain ⟨t, hlast, ⟨hfilling, hphase', htype', hevents, hothers⟩, hrest⟩ :=
    exec_rxByte_headerLast (s := s.withHeader hdr1 cursor (b :: rest)) (p := p) (hdr := hdr) hphase rfl hstate htype
      (by rw [← hinit, ← hcount]; rfl) (by rw [hheader, ← hbytes]; rfl) halloc
  refine ⟨t, ?_, ⟨hfilling, hphase', htype', hevents, hothers⟩, hrest⟩
  rw [← hinit, List.replicate_succ', runOps_append, hpartial, andThen_next, runOps, hlast]
  exact andThen_eq_self fun _ _ => rfl

/-- Settles O60: the type byte, the header, and the payload. -/
theorem oneFrameIsDeliveredAsOnePacket : Obligations.OneFrameIsDeliveredAsOnePacket := by
  intro s ty p hdr payload rest h hphase hstate htype hlength hfifo halloc
  rw [List.append_assoc] at hfifo
  obtain ⟨t, hheader, htaken, hfifo'⟩ :=
    runOps_header (s := idleByte ty { s with rxFifo := hdr.bytes.take p.hdrLen ++ (payload ++ rest) })
      hphase rfl rfl htype rfl halloc
  obtain ⟨u, hpayload, hover⟩ :=
    runOps_payload (s := t) (by rw [htaken.phase]; exact hphase) (hlength ▸ htaken.filling) hfifo'
  have hrun : runOps (List.replicate (1 + p.hdrLen + payload.length) .rxByte) s = .next u := by
    rw [Nat.add_assoc, ← List.replicate_append_replicate, ← List.replicate_append_replicate, List.replicate_one,
      List.singleton_append, runOps, exec_rxByte_of_idle hphase hfifo hstate, andThen_next, runOps_append, hheader,
      hpayload]
  have hkept := (receptionStep_runOps _ s u hrun).kept
  refine ⟨u, hrun, hover.state, hover.released, hover.fifo, ?_, (congrArg State.threadPart hkept :),
    (congrArg State.isrPhase hkept :), (congrArg State.devWake hkept :), (congrArg State.sleepLocked hkept :),
    (congrArg State.hwPending hkept :), (congrArg State.faults hkept :), fun h' off => ?_⟩
  · rw [hover.events, htaken.events, htaken.typed, List.append_assoc, List.singleton_append]
    rfl
  · by_cases hh' : h' = h
    · rw [hh', hover.buffer off]
      exact (read_of_not_owned (allocAnswer_fresh halloc) off).symm
    · exact (hover.others h' off hh').trans (htaken.others h' off hh')

end Sys2Proof.Machine
end

section
/-! PROOFS. The statements of spec/40_rx_reassembly.md about single bytes: what `RX_BYTE`, and the row its state selects,
leave in each case of `rx_step` (R100 to R111). -/

namespace Sys2Proof.Machine

variable {s : State} {b : Byte} {rest : List Byte} {p : PacketType} {hdr : HeaderBuffer} {h : Nat}

/-! ## `RX_BYTE` and its row -/

theorem hasTag_rxByte : HasTag 0x21 .rxByte := fun _ => rfl

/-- What `RX_BYTE` answers, the row selected answers too. -/
theorem exec_rxByte_and_row {i : Instr} {r : Result} (hrow : s.rxRow? = some i) (hrx : exec .rxByte s = r) :
    exec .rxByte s = r ∧ exec i s = r :=
  ⟨hrx, (exec_rxByte_eq_row hrow).symm.trans hrx⟩

/-- Settles O28. -/
theorem idleByteIsTakenAsType : Obligations.IdleByteIsTakenAsType :=
  ⟨hasTag_rxByte, fun _ _ _ hphase hfifo hstate =>
    exec_rxByte_and_row (by simp [State.rxRow?, hstate]) (exec_rxByte_of_idle hphase hfifo hstate)⟩

/-- Settles O33. -/
theorem badTypeReturnsToIdle : Obligations.BadTypeReturnsToIdle := by
  refine ⟨hasTag_rxByte, fun s b rest hphase hfifo hstate hvalid => ?_⟩
  have htype : packetType? s.pktType = none := by simpa [validType] using hvalid
  exact exec_rxByte_and_row (by simp [State.rxRow?, hstate, htype])
    ((exec_rxByte_of_cons hphase hfifo).trans (rxStep_of_badType b hstate htype))

/-! ## A header byte -/

/-- R101: the two writes of a header byte, when the Header Buffer they leave is given by its bytes. -/
theorem storeHeaderByte_eq_withHeader (rest : List Byte) (hcursor : s.hdrCursor.toNat < 4)
    (hbytes : hdr.bytes = s.hdrBuf.bytes.set s.hdrCursor.toNat b) :
    storeHeaderByte b { s with rxFifo := rest } = .next (s.withHeader hdr (s.hdrCursor + 1) rest) := by
  obtain ⟨hdr', hwrite, hbytes'⟩ := hdrBuf_write_bytes (hdr := s.hdrBuf) b hcursor
  obtain rfl : hdr = hdr' := hdrBytes_injective (hbytes.trans hbytes'.symm)
  exact storeHeaderByte_eq_next.2 ⟨hdr, hwrite, rfl⟩

/-- Settles O29. -/
theorem partialHeaderByteIsStored : Obligations.PartialHeaderByteIsStored := by
  intro s b rest p hphase hfifo hstate htype hcursor
  have hlen := hdrLen_bounds p
  have hlt : s.hdrCursor.toNat < 4 := by omega
  obtain ⟨hdr, -, hbytes⟩ := hdrBuf_write_bytes (hdr := s.hdrBuf) b hlt
  refine ⟨hdr, hbytes, exec_rxByte_and_row (by simp [State.rxRow?, hstate, htype, hcursor]) ?_⟩
  calc exec .rxByte s = rxStep b { s with rxFifo := rest } := exec_rxByte_of_cons hphase hfifo
    _ = storeHeaderByte b { s with rxFifo := rest } := rxStep_of_headerPartial b hstate htype hcursor
    _ = .next (s.withHeader hdr (s.hdrCursor + 1) rest) := storeHeaderByte_eq_withHeader rest hlt hbytes

/-! ## The header's last byte -/

/-- R104: `RX_BYTE` in `HEADER` with one byte of the header of type `p` still to come, and `hdr` what the Header Buffer
holds with that byte in it. -/
structure HeaderEnd (s : State) (b : Byte) (rest : List Byte) (p : PacketType) (hdr : HeaderBuffer) : Prop where
  phase : s.isrPhase ≠ .none
  fifo : s.rxFifo = b :: rest
  state : s.rxState = .header
  typed : packetType? s.pktType = some p
  cursor : s.hdrCursor.toNat + 1 = p.hdrLen
  bytes : hdr.bytes = s.hdrBuf.bytes.set s.hdrCursor.toNat b

theorem HeaderEnd.rxRow? (hend : HeaderEnd s b rest p hdr) : s.rxRow? = some .rxByteHeaderComplete := by
  simp [State.rxRow?, hend.state, hend.typed, hend.cursor]

/-- R101, R104: the byte is stored, and then the header is complete. -/
theorem HeaderEnd.exec_rxByte (hend : HeaderEnd s b rest p hdr) :
    exec .rxByte s = andThen (headerComplete p (s.withHeader hdr (s.hdrCursor + 1) rest)) resolveComplete := by
  obtain ⟨hphase, hfifo, hstate, htype, hcursor, hbytes⟩ := hend
  have hlen := hdrLen_bounds p
  rw [exec_rxByte_of_cons hphase hfifo,
    rxStep_of_headerComplete (s := { s with rxFifo := rest }) b hstate htype hcursor,
    storeHeaderByte_eq_withHeader rest (by omega) hbytes, andThen_next]

theorem withHeader_allocDrawn (hdr : HeaderBuffer) (cursor : BitVec 3) (rest : List Byte) :
    (s.withHeader hdr cursor rest).allocDrawn = s.allocDrawn.withHeader hdr cursor rest :=
  allocDrawn_withHeader rest hdr cursor

/-- R106: the state after a granted allocation, with the memory `m`. -/
def State.withBuffer (p : PacketType) (hdr : HeaderBuffer) (cursor : BitVec 3) (rest : List Byte) (h : Nat)
    (m : Memory) (s : State) : State :=
  { s.allocDrawn with
    rxFifo := rest, hdrBuf := hdr, hdrCursor := cursor
    trace := s.trace ++ [.alloc p.pool (p.bufferSize (p.lenField hdr)) (.ok h)]
    mem := m, pktBuf := some h, pktSize := p.bufferSize (p.lenField hdr)
    wrCursor := BitVec.ofNat 17 p.hdrLen, countdown := p.lenField hdr
    rxState := if p.lenField hdr = 0 then .complete else .data }

/-- R105, R106: a new buffer of the exact size with the header in it, and every other buffer as before. -/
structure HeaderInNewBuffer (p : PacketType) (hdr : HeaderBuffer) (h : Nat) (m m' : Memory) : Prop where
  fresh : Memory.size? m h = none
  size : Memory.size? m' h = some (p.bufferSize (p.lenField hdr))
  header : ∀ off, off < p.hdrLen → Memory.read m' h off = hdr.bytes[off]?
  unwritten : ∀ off, p.hdrLen ≤ off → Memory.read m' h off = none
  others : ∀ h' off, h' ≠ h → Memory.read m' h' off = Memory.read m h' off

theorem HeaderInNewBuffer.readList {m m' : Memory} (hin : HeaderInNewBuffer p hdr h m m') :
    Memory.readList m' h 0 p.hdrLen = some (hdr.bytes.take p.hdrLen) :=
  readList_eq_some.2 ⟨hdrBytes_take_length hdr p, fun off hoff => by
    rw [Nat.zero_add, hin.header off hoff, List.getElem?_take_of_lt hoff]⟩

/-- R105, R106: the granted allocation of the header's last byte, before the test for a packet without payload. -/
theorem HeaderEnd.exec_rxByte_of_granted (hend : HeaderEnd s b rest p hdr) (halloc : s.allocAnswer = .ok h) :
    ∃ m, exec .rxByte s = resolveComplete (s.withBuffer p hdr (s.hdrCursor + 1) rest h m) ∧
      HeaderInNewBuffer p hdr h s.mem m := by
  have hfresh := allocAnswer_fresh halloc
  obtain ⟨m, hgranted, -, hsize, hread, hunwritten, hothers, -⟩ :=
    headerGranted_eq (s := s.withHeader hdr (s.hdrCursor + 1) rest) (p := p) hfresh
  have halloc' : (s.withHeader hdr (s.hdrCursor + 1) rest).allocAnswer = .ok h := halloc
  refine ⟨m, ?_, hfresh, hsize, fun off hoff => ?_, hunwritten, hothers⟩
  · simp only [hend.exec_rxByte, headerComplete, halloc', hgranted, andThen_next, withHeader_allocDrawn, State.emit]
    simp only [State.withHeader, allocDrawn_trace]
    rfl
  · rw [hread off hoff, List.getElem?_take_of_lt hoff]
    rfl

/-- Settles O30. -/
theorem completedHeaderTakesABuffer : Obligations.CompletedHeaderTakesABuffer := by
  intro s b rest p hdr h hphase hfifo hstate htype hcursor hbytes halloc hpayload
  have hend : HeaderEnd s b rest p hdr := ⟨hphase, hfifo, hstate, htype, hcursor, hbytes⟩
  obtain ⟨m, hrx, hin⟩ := hend.exec_rxByte_of_granted halloc
  have hdata : (s.withBuffer p hdr (s.hdrCursor + 1) rest h m).rxState = .data := if_neg hpayload
  rw [resolveComplete_of_ne (by rw [hdata]; nofun)] at hrx
  obtain ⟨hrx, hrow⟩ := exec_rxByte_and_row hend.rxRow? hrx
  refine ⟨_, hrx, hrow, ?_, bufferSize_toNat _ p, hin.fresh, hin.size, hin.header, hin.unwritten, hin.others⟩
  simp only [State.withBuffer, if_neg hpayload]

/-- R130, R134: a held packet that can be read is handed over. -/
theorem complete_of_packetBytes {bytes : List Byte} (hheld : s.pktBuf = some h)
    (hbytes : s.packetBytes h = some bytes) :
    complete s = .next (s.finishPacket h (completionEvents s.pktType bytes)) :=
  complete_eq_next.2 (.inr ⟨h, bytes, hheld, hbytes, rfl⟩)

/-- R131, R81: a vendor Command-Complete event has at least six bytes, so a shorter packet is delivered alone. -/
theorem completionEvents_of_length_lt {ty : Byte} {bytes : List Byte} (hlt : bytes.length < 6) :
    completionEvents ty bytes = [.deliver ty bytes] := by
  obtain hplain | ⟨v, hvendor, -⟩ := completionEvents_cases ty bytes
  · exact hplain
  · obtain ⟨len, num, lo, hi, status, data, rfl, -⟩ := vendorCc?_eq_some.1 hvendor
    simp only [List.length_cons] at hlt
    omega

/-- R55: with no payload the buffer has the size of the header. -/
theorem bufferSize_zero (p : PacketType) : p.bufferSize 0#16 = BitVec.ofNat 17 p.hdrLen := by
  simp [PacketType.bufferSize]

/-- Settles O31. -/
theorem zeroPayloadPacketIsDeliveredAtOnce : Obligations.ZeroPayloadPacketIsDeliveredAtOnce := by
  intro s b rest p hdr h hphase hfifo hstate htype hcursor hbytes halloc hpayload
  have hend : HeaderEnd s b rest p hdr := ⟨hphase, hfifo, hstate, htype, hcursor, hbytes⟩
  obtain ⟨m, hrx, hin⟩ := hend.exec_rxByte_of_granted halloc
  have hcomplete : (s.withBuffer p hdr (s.hdrCursor + 1) rest h m).rxState = .complete := if_pos hpayload
  have hpacket : (s.withBuffer p hdr (s.hdrCursor + 1) rest h m).packetBytes h = some (hdr.bytes.take p.hdrLen) := by
    rw [State.packetBytes, State.withBuffer, bufferSize_toNat, hpayload]
    exact hin.readList
  have hevents : completionEvents s.pktType (hdr.bytes.take p.hdrLen) =
      [.deliver s.pktType (hdr.bytes.take p.hdrLen)] :=
    completionEvents_of_length_lt (by
      rw [hdrBytes_take_length]
      exact Nat.lt_of_le_of_lt (hdrLen_bounds p).2 (by decide))
  rw [resolveComplete_of_complete hcomplete, complete_of_packetBytes rfl hpacket] at hrx
  obtain ⟨hrx, hrow⟩ := exec_rxByte_and_row hend.rxRow? hrx
  refine ⟨_, hrx, hrow, ?_, fun h' off => ?_⟩
  · simp [State.finishPacket, State.withBuffer, hpayload, hevents, bufferSize_zero]
  · simp only [finishPacket_mem, State.withBuffer, read_release]
    split
    next heq => rw [heq, read_of_not_owned hin.fresh]
    next hne => exact hin.others h' off hne

/-- Settles O32. -/
theorem failedAllocationEntersError : Obligations.FailedAllocationEntersError := by
  intro s b rest p hdr hphase hfifo hstate htype hcursor hbytes halloc
  have hend : HeaderEnd s b rest p hdr := ⟨hphase, hfifo, hstate, htype, hcursor, hbytes⟩
  have halloc' : (s.withHeader hdr (s.hdrCursor + 1) rest).allocAnswer = .fail := halloc
  have hrx : exec .rxByte s = .next (headerDenied p (s.withHeader hdr (s.hdrCursor + 1) rest)) := by
    simp only [hend.exec_rxByte, headerComplete, halloc', andThen_next]
    exact resolveComplete_of_ne nofun
  obtain ⟨hrx, hrow⟩ := exec_rxByte_and_row hend.rxRow? hrx
  refine ⟨_, hrx, hrow, ?_⟩
  simp only [headerDenied, withHeader_allocDrawn, State.emit]
  simp only [State.withHeader, allocDrawn_trace, allocDrawn_allocFailCount, countUp]

/-! ## A payload byte -/

/-- R110: a payload byte goes to `wr_cursor` of the held buffer. -/
theorem dataByte_eq_of_room {size : BitVec 17} (b : Byte) (rest : List Byte) (hheld : s.pktBuf = some h)
    (hcount : s.countdown ≠ 0) (howned : Memory.size? s.mem h = some size) (hroom : s.wrCursor.toNat < size.toNat) :
    ∃ m, Memory.write s.mem h s.wrCursor.toNat b = some m ∧
      dataByte b { s with rxFifo := rest } = .next { s with
        rxFifo := rest, mem := m, wrCursor := s.wrCursor + 1, countdown := s.countdown - 1
        rxState := if s.countdown - 1 = 0 then .complete else .data } := by
  obtain ⟨m, hwrite⟩ := write_isSome b howned hroom
  exact ⟨m, hwrite, dataByte_eq_next.2 ⟨h, m, hheld, hcount, hwrite, rfl⟩⟩

/-- Settles O34. -/
theorem payloadByteIsAppended : Obligations.PayloadByteIsAppended := by
  intro s b rest h size hphase hfifo hstate hheld hmore howned hroom
  have hcount : s.countdown ≠ 0 := by bv_omega
  have hnotLast : s.countdown - 1 ≠ 0 := by bv_omega
  obtain ⟨m, hwrite, hdata⟩ := dataByte_eq_of_room b rest hheld hcount howned hroom
  obtain ⟨-, hread, hothers, -⟩ := write_spec hwrite
  have hrx : exec .rxByte s = dataByte b { s with rxFifo := rest } :=
    (exec_rxByte_of_cons hphase hfifo).trans (rxStep_of_dataMore b hstate hmore)
  obtain ⟨hrx, hrow⟩ :=
    exec_rxByte_and_row (i := .rxByteDataMore) (by simp [State.rxRow?, hstate, hmore]) (hrx.trans hdata)
  exact ⟨_, hrx, hrow, by simp only [if_neg hnotLast, hstate], hread, hothers⟩

/-- The byte written behind the bytes of a buffer is read behind them. -/
theorem readList_of_write {m m' : Memory} {off : Nat} {bytes : List Byte} (hwrite : Memory.write m h off b = some m')
    (hbytes : Memory.readList m h 0 off = some bytes) : Memory.readList m' h 0 (off + 1) = some (bytes ++ [b]) := by
  obtain ⟨-, hread, hothers, -⟩ := write_spec hwrite
  obtain ⟨rfl, -⟩ := readList_eq_some.1 hbytes
  have hbefore : Memory.readList m' h 0 bytes.length = some bytes :=
    readList_congr (fun i hi => hothers h (0 + i) (by simp; omega)) hbytes
  simpa using readList_concat hbefore hread

/-- Settles O35. -/
theorem lastPayloadByteDeliversThePacket : Obligations.LastPayloadByteDeliversThePacket := by
  intro s b rest h size bytes hphase hfifo hstate hheld hlast howned hroom hsize hbytes
  obtain ⟨m, hwrite, hdata⟩ := dataByte_eq_of_room b rest hheld (by simp [hlast]) howned hroom
  obtain ⟨-, -, hothers, -⟩ := write_spec hwrite
  have hpacket : Memory.readList m h 0 s.pktSize.toNat = some (bytes ++ [b]) := by
    rw [hsize]
    exact readList_of_write hwrite hbytes
  have hrx : exec .rxByte s = andThen (dataByte b { s with rxFifo := rest }) complete :=
    (exec_rxByte_of_cons hphase hfifo).trans (rxStep_of_dataLast b hstate hlast)
  rw [hdata, andThen_next] at hrx
  obtain ⟨hrx, hrow⟩ := exec_rxByte_and_row (i := .rxByteDataLast) (by simp [State.rxRow?, hstate, hlast])
    (hrx.trans (complete_of_packetBytes hheld hpacket))
  refine ⟨_, hrx, hrow, ?_, fun off => ?_, fun h' off hne => ?_⟩
  · simp [State.finishPacket, hlast]
  · simp [read_release]
  · rw [finishPacket_mem, read_release, if_neg hne]
    exact hothers h' off (by simp [hne])

end Sys2Proof.Machine
end

section
/-! PROOFS. The two statements of spec/40_rx_reassembly.md about every operation and every pair of states: `ERROR` is left
only by `RESET` (R111), and what `RX_BYTE` does depends only on the reassembler, the byte and the answer of `Alloc` (R107). -/

namespace Sys2Proof.Machine

variable {s s' t : State}

/-! ## `ERROR` -/

/-- A row whose condition fails has no step (log 13). -/
theorem rxSelected_of_none {case : Byte → State → Option Result}
    (hnone : ∀ b rest, case b { s with rxFifo := rest } = none) : rxSelected case s = .next s := by
  unfold rxSelected
  split
  next b s1 htake =>
    obtain ⟨-, rest, -, rfl⟩ := takeRxByte_eq_some.1 htake
    rw [hnone b rest]
    rfl
  next => rfl

/-- R112: in `ERROR` a row of reception has no step, but for `RX_BYTE.ERROR`, which is `RX_BYTE`. -/
theorem exec_reception_of_error {i : Instr} (hi : i = .rxByte ∨ i.format ≠ .opTag) (hstate : s.rxState = .error) :
    exec i s = .next s ∨ exec i s = exec .rxByte s := by
  cases i with
  | rxByte => exact .inr rfl
  | rxByteError => exact .inr (exec_rxByte_eq_row (by simp [State.rxRow?, hstate])).symm
  | h4Cmd | h4Acl | h4Evt | h4SyncInvalid | h4Invalid00 | h4Invalid05 | h4Invalid06 | h4Invalid08 | h4Invalid10
  | h4Invalid20 | h4Invalid40 | h4Invalid80 =>
    exact .inl (rxSelected_of_none fun b rest => by simp [State.frameType?, hstate])
  | rxByteHeaderPartial | rxByteHeaderComplete =>
    exact .inl (rxSelected_of_none fun b rest => by simp [State.headerType?, hstate])
  | rxByteIdle | rxByteHeaderBadtype | rxByteDataMore | rxByteDataLast =>
    exact .inl (rxSelected_of_none fun b rest => by simp [hstate])
  | completeVendorCc | completePlain => exact .inl (if_neg (by simp [hstate]))
  | _ => simp [Instr.format] at hi

/-- R111: `RX_BYTE` takes the byte, if there is one to take, and stays in `ERROR`. -/
theorem exec_rxByte_keeps_error (hstate : s.rxState = .error) (hstep : exec .rxByte s = .next t) :
    t.rxState = .error := by
  cases htake : s.takeRxByte with
  | none =>
    rw [exec_rxByte_disabled (takeRxByte_eq_none.1 htake)] at hstep
    obtain rfl := Host.Outcome.next.inj hstep
    exact hstate
  | some taken =>
    obtain ⟨hphase, rest, hfifo, -⟩ := takeRxByte_eq_some.1 htake
    rw [exec_rxByte_of_error hphase hfifo hstate] at hstep
    obtain rfl := Host.Outcome.next.inj hstep
    rfl

/-- R111: no instruction but `RESET` leaves `ERROR`: what is not reception leaves the whole reassembler. -/
theorem exec_keeps_error {i : Instr} (hstate : s.rxState = .error) (hreset : i ≠ .reset) (hstep : exec i s = .next t) :
    t.rxState = .error := by
  by_cases hi : i = .rxByte ∨ i.format ≠ .opTag
  · obtain hnone | hrx := exec_reception_of_error hi hstate
    · obtain rfl := Host.Outcome.next.inj (hnone.symm.trans hstep)
      exact hstate
    · exact exec_rxByte_keeps_error hstate (hrx.symm.trans hstep)
  · obtain ⟨hrx, hop⟩ := not_or.1 hi
    have hkept := (outsideStep_exec (not_not.1 hop) hreset hrx s t hstep).kept
    exact (congrArg Reassembly.rxState hkept).trans hstate

/-- Settles O36. -/
theorem errorIsLeftOnlyByReset : Obligations.ErrorIsLeftOnlyByReset := by
  refine ⟨hasTag_rxByte, fun s b rest hphase hfifo hstate => ?_, fun i s t => exec_keeps_error,
    fun s => ⟨_, rfl, rfl⟩⟩
  have herror : errorByte { s with rxFifo := rest } = { s with rxFifo := rest } := by simp only [errorByte, hstate]
  exact exec_rxByte_and_row (by simp [State.rxRow?, hstate])
    ((exec_rxByte_of_error hphase hfifo hstate).trans (congrArg _ herror))

/-! ## Two receptions side by side -/

/-- From `s` to `t` and from `s'` to `t'` the reassembler has come to the same, by the same events. -/
structure SameReception (s s' t t' : State) : Prop where
  reassembly : t.reassembly = t'.reassembly
  events : ∃ es, t.trace = s.trace ++ es ∧ t'.trace = s'.trace ++ es

theorem SameReception.newEvents {t' : State} (hsame : SameReception s s' t t') : newEvents s' t' = newEvents s t := by
  obtain ⟨es, hes, hes'⟩ := hsame.events
  rw [newEvents_of_append hes, newEvents_of_append hes']

theorem SameReception.silent {t' : State} (hsame : t.reassembly = t'.reassembly) (ht : t.trace = s.trace)
    (ht' : t'.trace = s'.trace) : SameReception s s' t t' :=
  ⟨hsame, [], by rw [ht, List.append_nil], by rw [ht', List.append_nil]⟩

theorem SameReception.trans {t' u u' : State} (h1 : SameReception s s' t t') (h2 : SameReception t t' u u') :
    SameReception s s' u u' := by
  obtain ⟨-, es, hes, hes'⟩ := h1
  obtain ⟨hsame, es2, hes2, hes2'⟩ := h2
  exact ⟨hsame, es ++ es2, by rw [hes2, hes, List.append_assoc], by rw [hes2', hes', List.append_assoc]⟩

/-- Where the one result goes on, so does the other, and the reassembler comes to the same. -/
def GoAlike (s s' : State) (r r' : Result) : Prop := ∀ t, r = .next t → ∃ t', r' = .next t' ∧ SameReception s s' t t'

theorem goAlike_next {t' : State} (hsame : SameReception s s' t t') : GoAlike s s' (.next t) (.next t') := by
  intro u hu
  obtain rfl := Host.Outcome.next.inj hu
  exact ⟨t', rfl, hsame⟩

theorem goAlike_fault {e : Fault} {r' : Result} : GoAlike s s' (.fault e) r' := fun _ heq => nomatch heq

theorem goAlike_andThen {r r' : Result} {f : State → Result} (hr : GoAlike s s' r r')
    (hf : ∀ t t', r = .next t → r' = .next t' → t.reassembly = t'.reassembly → GoAlike t t' (f t) (f t')) :
    GoAlike s s' (andThen r f) (andThen r' f) := by
  intro u hu
  obtain ⟨t, ht, hu⟩ := andThen_eq_next.1 hu
  obtain ⟨t', ht', hsame⟩ := hr t ht
  obtain ⟨u', hu', hsame'⟩ := hf t t' ht ht' hsame.reassembly u hu
  exact ⟨u', andThen_eq_next.2 ⟨t', ht', hu'⟩, hsame.trans hsame'⟩

/-- R101: a header byte has no part in what `Alloc` will answer. -/
theorem storeHeaderByte_allocAnswer {b : Byte} (hstore : storeHeaderByte b s = .next t) :
    t.allocAnswer = s.allocAnswer := by
  obtain ⟨hdr, -, rfl⟩ := storeHeaderByte_eq_next.1 hstore
  rfl

section
variable (hsame : s.reassembly = s'.reassembly)
include hsame

theorem goAlike_idleByte (b : Byte) : GoAlike s s' (.next (idleByte b s)) (.next (idleByte b s')) :=
  goAlike_next (.silent
    (congrArg (fun r : Reassembly => { r with pktType := b, hdrCursor := 0, rxState := .header }) hsame) rfl rfl)

theorem goAlike_badType : GoAlike s s' (.next (badType s)) (.next (badType s')) :=
  goAlike_next (.silent
    (congrArg (fun r : Reassembly => { r with badTypeCount := countUp r.badTypeCount, rxState := .idle }) hsame)
    rfl rfl)

theorem goAlike_errorByte : GoAlike s s' (.next (errorByte s)) (.next (errorByte s')) :=
  goAlike_next (.silent (congrArg (fun r : Reassembly => { r with rxState := .error }) hsame) rfl rfl)

theorem goAlike_dataByte (b : Byte) : GoAlike s s' (dataByte b s) (dataByte b s') := by
  intro t hdata
  obtain ⟨h, m, hheld, hcount, hwrite, rfl⟩ := dataByte_eq_next.1 hdata
  have hbuf : s.pktBuf = s'.pktBuf := congrArg Reassembly.pktBuf hsame
  have hleft : s.countdown = s'.countdown := congrArg Reassembly.countdown hsame
  have hcursor : s.wrCursor = s'.wrCursor := congrArg Reassembly.wrCursor hsame
  have hmem : s.mem = s'.mem := congrArg Reassembly.mem hsame
  rw [hbuf] at hheld
  rw [hmem, hcursor] at hwrite
  refine ⟨_, dataByte_eq_next.2 ⟨h, m, hheld, hleft ▸ hcount, hwrite, rfl⟩, .silent ?_ rfl rfl⟩
  exact congrArg (fun r : Reassembly => { r with
    mem := m, wrCursor := r.wrCursor + 1, countdown := r.countdown - 1,
    rxState := if r.countdown - 1 = 0 then .complete else .data }) hsame

theorem goAlike_complete : GoAlike s s' (complete s) (complete s') := by
  intro t hcomplete
  have hbuf : s.pktBuf = s'.pktBuf := congrArg Reassembly.pktBuf hsame
  have htype : s.pktType = s'.pktType := congrArg Reassembly.pktType hsame
  obtain ⟨hnone, rfl⟩ | ⟨h, bytes, hheld, hbytes, rfl⟩ := complete_eq_next.1 hcomplete
  · refine ⟨_, complete_eq_next.2 (.inl ⟨hbuf ▸ hnone, rfl⟩), .silent ?_ rfl rfl⟩
    exact congrArg (fun r : Reassembly => { r with pktBuf := none, rxState := .idle }) hsame
  · have hbytes' : s'.packetBytes h = some bytes :=
      (congrArg (fun r : Reassembly => Memory.readList r.mem h 0 r.pktSize.toNat) hsame).symm.trans hbytes
    refine ⟨_, complete_of_packetBytes (hbuf ▸ hheld) hbytes', ?_, completionEvents s.pktType bytes, rfl, ?_⟩
    · exact congrArg (fun r : Reassembly =>
        { r with mem := Memory.release r.mem h, pktBuf := none, rxState := .idle }) hsame
    · rw [htype, finishPacket_trace]

theorem goAlike_resolveComplete : GoAlike s s' (resolveComplete s) (resolveComplete s') := by
  have hstate : s.rxState = s'.rxState := congrArg Reassembly.rxState hsame
  unfold resolveComplete
  rw [← hstate]
  split
  · exact goAlike_complete hsame
  · exact goAlike_next (.silent hsame rfl rfl)

/-- Whatever is drawn, the reassembler is as before the draw. -/
theorem allocDrawn_reassembly_eq : s.allocDrawn.reassembly = s'.allocDrawn.reassembly := by
  simpa [State.reassembly] using hsame

theorem goAlike_headerGranted (p : PacketType) (h : Nat) :
    GoAlike s s' (headerGranted p h s) (headerGranted p h s') := by
  have hhdr : s.hdrBuf = s'.hdrBuf := congrArg Reassembly.hdrBuf hsame
  have hmem : s.mem = s'.mem := congrArg Reassembly.mem hsame
  unfold headerGranted
  rw [← hhdr, ← hmem]
  split
  next m _ =>
    refine goAlike_next ⟨?_, [.alloc p.pool (p.bufferSize (p.lenField s.hdrBuf)) (.ok h)], by simp, by simp⟩
    exact congrArg (fun r : Reassembly => { r with
      mem := m, pktBuf := some h, pktSize := p.bufferSize (p.lenField s.hdrBuf)
      wrCursor := BitVec.ofNat 17 p.hdrLen, countdown := p.lenField s.hdrBuf
      rxState := if p.lenField s.hdrBuf = 0 then .complete else .data }) (allocDrawn_reassembly_eq hsame)
  next => exact goAlike_fault

theorem goAlike_headerDenied (p : PacketType) : GoAlike s s' (.next (headerDenied p s)) (.next (headerDenied p s')) := by
  have hhdr : s.hdrBuf = s'.hdrBuf := congrArg Reassembly.hdrBuf hsame
  have hfail : s.allocFailCount = s'.allocFailCount := congrArg Reassembly.allocFailCount hsame
  unfold headerDenied
  rw [← hhdr, ← hfail]
  refine goAlike_next ⟨?_, [.alloc p.pool (p.bufferSize (p.lenField s.hdrBuf)) .fail], by simp, by simp⟩
  exact congrArg (fun r : Reassembly => { r with allocFailCount := countUp s.allocFailCount, rxState := .error })
    (allocDrawn_reassembly_eq hsame)

/-- R105: the answer of `Alloc` is the one thing besides the reassembler that decides. -/
theorem goAlike_headerComplete (p : PacketType) (halloc : s.allocAnswer = s'.allocAnswer) :
    GoAlike s s' (headerComplete p s) (headerComplete p s') := by
  unfold headerComplete
  rw [← halloc]
  cases s.allocAnswer with
  | ok h => exact goAlike_headerGranted hsame p h
  | fail => exact goAlike_headerDenied hsame p

theorem goAlike_storeHeaderByte (b : Byte) : GoAlike s s' (storeHeaderByte b s) (storeHeaderByte b s') := by
  intro t hstore
  have hhdr : s.hdrBuf = s'.hdrBuf := congrArg Reassembly.hdrBuf hsame
  have hcursor : s.hdrCursor = s'.hdrCursor := congrArg Reassembly.hdrCursor hsame
  obtain ⟨hdr, hwrite, rfl⟩ := storeHeaderByte_eq_next.1 hstore
  rw [hhdr, hcursor] at hwrite
  refine ⟨_, storeHeaderByte_eq_next.2 ⟨hdr, hwrite, rfl⟩, .silent ?_ rfl rfl⟩
  exact congrArg (fun r : Reassembly => { r with hdrBuf := hdr, hdrCursor := r.hdrCursor + 1 }) hsame

theorem goAlike_headerByte (p : PacketType) (b : Byte) (halloc : s.allocAnswer = s'.allocAnswer) :
    GoAlike s s' (headerByte p b s) (headerByte p b s') := by
  refine goAlike_andThen (goAlike_storeHeaderByte hsame b) fun t t' ht ht' hstored => ?_
  have halloc' : t.allocAnswer = t'.allocAnswer := by
    rw [storeHeaderByte_allocAnswer ht, storeHeaderByte_allocAnswer ht', halloc]
  have hcursor : t.hdrCursor = t'.hdrCursor := congrArg Reassembly.hdrCursor hstored
  rw [← hcursor]
  split
  · exact goAlike_headerComplete hstored p halloc'
  · exact goAlike_next (.silent hstored rfl rfl)

theorem goAlike_rxCase (b : Byte) (halloc : s.allocAnswer = s'.allocAnswer) :
    GoAlike s s' (rxCase b s) (rxCase b s') := by
  have hstate : s.rxState = s'.rxState := congrArg Reassembly.rxState hsame
  have htype : s.pktType = s'.pktType := congrArg Reassembly.pktType hsame
  unfold rxCase
  rw [← hstate, ← htype]
  cases s.rxState with
  | idle => exact goAlike_idleByte hsame b
  | header =>
    dsimp only
    split
    · exact goAlike_headerByte hsame _ b halloc
    · exact goAlike_badType hsame
  | data => exact goAlike_dataByte hsame b
  | error => exact goAlike_errorByte hsame
  | complete => exact goAlike_fault

theorem goAlike_rxStep (b : Byte) (halloc : s.allocAnswer = s'.allocAnswer) :
    GoAlike s s' (rxStep b s) (rxStep b s') :=
  goAlike_andThen (goAlike_rxCase hsame b halloc) fun _ _ _ _ => goAlike_resolveComplete

end

/-- Settles O53: the rest of the FIFO and the rest of the state are nothing to `rx_step`. -/
theorem rxByteDependsOnlyOnReassemblerAndByte : Obligations.RxByteDependsOnlyOnReassemblerAndByte := by
  intro s s' t b rest rest' hphase hphase' hfifo hfifo' hsame halloc hstep
  rw [exec_rxByte_of_cons hphase hfifo] at hstep
  obtain ⟨t', hstep', hreception⟩ :=
    goAlike_rxStep (s := { s with rxFifo := rest }) (s' := { s' with rxFifo := rest' }) hsame b halloc t hstep
  exact ⟨t', (exec_rxByte_of_cons hphase' hfifo').trans hstep', hreception.reassembly.symm, hreception.newEvents⟩

end Sys2Proof.Machine
end

section
/-! PROOFS. The statements of spec/41_rx_completion.md: which packets are vendor Command-Complete events (R131, R132), and
what the two rows of the Complete resolution leave (R130 to R139). -/

namespace Sys2Proof.Machine

variable {s : State} {h : Nat} {bytes : List Byte}

/-! ## Which packets are vendor Command-Complete events -/

/-- R80, R132: the group stands in the upper six bits of the opcode's second byte. -/
theorem ogf_halfLE (lo hi : Byte) : ogf (halfLE lo hi) = hi.extractLsb' 2 6 :=
  BitVec.extractLsb'_append_eq_of_le (by decide)

theorem isVendorCc_iff {ty : Byte} :
    isVendorCc ty bytes = true ↔ ∃ len num lo hi status data,
      bytes = Config.evtCmdComplete :: len :: num :: lo :: hi :: status :: data ∧ ty = Config.typeEvt ∧
      4 ≤ len.toNat ∧ ogf (halfLE lo hi) = 0x3F#6 := by
  simp only [isVendorCc, Option.isSome_iff_exists, vendorCc?_eq_some, vendorOpcode_iff]
  constructor
  · rintro ⟨-, len, num, lo, hi, status, data, hbytes, hty, hlen, hogf, -⟩
    exact ⟨len, num, lo, hi, status, data, hbytes, hty, hlen, hogf⟩
  · rintro ⟨len, num, lo, hi, status, data, hbytes, hty, hlen, hogf⟩
    exact ⟨_, len, num, lo, hi, status, data, hbytes, hty, hlen, hogf, rfl⟩

/-- Settles O39: under (c) an Event has six bytes or more, so the packet has the opcode and the status that the model's
pattern asks for. -/
theorem vendorCommandCompleteIsRecognisedExactly : Obligations.VendorCommandCompleteIsRecognisedExactly := by
  intro ty len bytes hlen hsize
  constructor
  · intro hvendor
    obtain ⟨len', num, lo, hi, status, data, rfl, hty, hlong, hogf⟩ := isVendorCc_iff.1 hvendor
    obtain rfl := Option.some.inj hlen
    exact ⟨hty, rfl, hlong, lo, hi, rfl, rfl, hogf⟩
  · rintro ⟨hty, hcode, hlong, lo, hi, hlo, hhi, hogf⟩
    have hsix : 6 ≤ bytes.length := by rw [hsize hty]; omega
    match bytes, hsix with
    | code :: len' :: num :: lo' :: hi' :: status :: data, _ =>
      obtain rfl := Option.some.inj hcode
      obtain rfl := Option.some.inj hlen
      obtain rfl := Option.some.inj hlo
      obtain rfl := Option.some.inj hhi
      exact isVendorCc_iff.2 ⟨len', num, lo', hi', status, data, rfl, hty, hlong, hogf⟩

/-! ## The two rows of the Complete resolution -/

/-- R134, R135: the state after a packet: the events are recorded, the held buffer can no longer be read, and every other
buffer reads as before. -/
theorem finishPacket_spec (h : Nat) (events : List Event) (s : State) :
    s.finishPacket h events = { s with
      trace := s.trace ++ events, mem := (s.finishPacket h events).mem, pktBuf := none, rxState := .idle } ∧
    (∀ off, Memory.read (s.finishPacket h events).mem h off = none) ∧
    (∀ h' off, h' ≠ h → Memory.read (s.finishPacket h events).mem h' off = Memory.read s.mem h' off) := by
  refine ⟨rfl, fun off => ?_, fun h' off hne => ?_⟩
  · rw [finishPacket_mem, read_release, if_pos rfl]
  · rw [finishPacket_mem, read_release, if_neg hne]

/-- R130, log 14: the row of a held packet hands it over with the events of the resolution. -/
theorem exec_completeRow (hstate : s.rxState = .complete) (hheld : s.pktBuf = some h)
    (hbytes : s.packetBytes h = some bytes) :
    exec (if isVendorCc s.pktType bytes then .completeVendorCc else .completePlain) s =
      .next (s.finishPacket h (completionEvents s.pktType bytes)) :=
  (complete_eq_row hstate hheld hbytes).symm.trans (complete_of_packetBytes hheld hbytes)

/-- R130, R136: the events of a recognised packet. -/
theorem completionEvents_of_vendorCc {ty : Byte} {v : VendorResponse} (hvendor : vendorCc? ty bytes = some v) :
    completionEvents ty bytes = [.inject v.opcode v.status v.dataLen v.data, .deliver ty bytes] := by
  simp only [completionEvents, hvendor]

/-- R139: the events of every other packet. -/
theorem completionEvents_of_not_vendorCc {ty : Byte} (hplain : isVendorCc ty bytes = false) :
    completionEvents ty bytes = [.deliver ty bytes] := by
  have hnone : vendorCc? ty bytes = none := by simpa [isVendorCc] using hplain
  simp only [completionEvents, hnone]

/-- Settles O37. -/
theorem vendorCommandCompleteIsInjectedThenDelivered :
    Obligations.VendorCommandCompleteIsInjectedThenDelivered := by
  intro s h bytes data len num lo hi status hstate hheld htype hbytes hread hlong hgroup
  have hopcode : vendorOpcode (halfLE lo hi) = true := (vendorOpcode_iff _).2 ((ogf_halfLE lo hi).trans hgroup)
  have hvendor : vendorCc? s.pktType bytes = some ⟨halfLE lo hi, status, len - 4, data⟩ :=
    vendorCc?_eq_some.2 ⟨len, num, lo, hi, status, data, hbytes, htype, hlong, hopcode, rfl⟩
  have hrow := exec_completeRow hstate hheld hread
  rw [if_pos (by rw [isVendorCc, hvendor]; rfl), completionEvents_of_vendorCc hvendor, htype] at hrow
  exact ⟨_, hrow, finishPacket_spec h _ s⟩

/-- Settles O38. -/
theorem plainPacketIsDeliveredAlone : Obligations.PlainPacketIsDeliveredAlone := by
  refine ⟨fun s h bytes hstate hheld hread hplain => ?_, fun s hstate hnone => ?_⟩
  · have hrow := exec_completeRow hstate hheld hread
    rw [if_neg (by rw [hplain]; decide), completionEvents_of_not_vendorCc hplain] at hrow
    exact ⟨_, hrow, finishPacket_spec h _ s⟩
  · exact (complete_eq_plain_of_noBuffer hstate hnone).symm.trans (complete_eq_next.2 (.inl ⟨hnone, rfl⟩))

end Sys2Proof.Machine
end

section
/-! PROOFS. The statements of spec/42_transport.md: what each operation of THREAD, of the handlers' entry and exit, and
of ENV leaves when it is enabled (R150 to R167), and that the steps of a whole write send its frame (R155 to R159). -/

namespace Sys2Proof.Machine

variable {s : State} {type b : Byte} {length : Half} {data : List Byte}

/-! ## The encoding -/

/-- R83: an operation that is encoded as one byte has this byte as its tag. -/
theorem hasTag_of_encode {tag : Byte} {i : Instr} (hencode : encode i = [tag]) (hop : i.format = .opTag)
    (hwf : i.wf = true) : HasTag tag i := fun rest => by
  have hread := decodeReadsBackEveryOperation i rest hop hwf
  rwa [hencode, List.singleton_append] at hread

/-- R155, log 20: a script that ends inside the data of a `WRITE_BEGIN` holds no operation. -/
theorem decode_writeBegin_of_short (hshort : data.length < length.toNat) :
    decode (0x10 :: type :: loByte length :: hiByte length :: data) = .error .truncated := by
  have hparse : parseWriteBegin (type :: loByte length :: hiByte length :: data) = .error .truncated := by
    rw [parseWriteBegin, halfLE_lo_hi, if_neg (Nat.not_le.2 hshort)]
  exact hparse

theorem step_of_decode_error {r : DecodeReject} (hdecode : decode s.script = .error r) (hr : r ≠ .empty) :
    step s = .refused (.undecodable r) := by
  have hfetch : fetch s = .error r := by rw [fetch, hdecode]
  rw [step, hfetch]
  cases r with
  | empty => exact absurd rfl hr
  | _ => rfl

/-- Settles O6. -/
theorem stepIdlesOnEmptyAndRefusesTruncated : Obligations.StepIdlesOnEmptyAndRefusesTruncated := by
  refine ⟨fun s hscript => ?_, fun s t len data hscript hshort => ?_, fun s hscript => ?_⟩
  · have hfetch : fetch s = .error .empty := by rw [fetch, hscript]; rfl
    rw [step, hfetch]
  · exact step_of_decode_error (by rw [hscript, decode_writeBegin_of_short hshort]) nofun
  · exact step_of_decode_error (by rw [hscript]; rfl) nofun

/-! ## Initialisation -/

theorem exec_init_of_uninit (hphase : s.isrPhase = .none) (hinit : s.initState = .uninit) :
    exec .init s = .next s.initialised := by
  simp [exec, execInit, hphase, hinit]

theorem exec_init_of_not_uninit (hphase : s.isrPhase = .none) (hinit : s.initState ≠ .uninit) :
    exec .init s = .next (s.raiseFault .initTwice) := by
  simp [exec, execInit, hphase, hinit]

theorem exec_initSettle_of_settling (hphase : s.isrPhase = .none) (hinit : s.initState = .settling) :
    exec .initSettle s = .next { s.setDevWake false with initState := .ready } := by
  simp [exec, execInitSettle, hphase, hinit]

/-- Settles O10. -/
theorem initConfiguresAndArms : Obligations.InitConfiguresAndArms :=
  ⟨hasTag_of_encode rfl rfl rfl, fun _ => exec_init_of_uninit⟩

/-- Settles O11. -/
theorem secondInitRaisesInitTwice : Obligations.SecondInitRaisesInitTwice := fun _ => exec_init_of_not_uninit

/-- Settles O12. -/
theorem initSettleDeassertsDeviceWake : Obligations.InitSettleDeassertsDeviceWake :=
  ⟨hasTag_of_encode rfl rfl rfl, fun _ => exec_initSettle_of_settling⟩

/-- Settles O13. -/
theorem terminateChangesNothing : Obligations.TerminateChangesNothing :=
  ⟨hasTag_of_encode rfl rfl rfl, fun _ => rfl⟩

/-! ## The steps of a write -/

/-- R158: drawing the answer of the UART uses a recorded answer, or else an opaque one, and nothing else. -/
theorem readyDrawn_eq (s : State) :
    s.readyDrawn = { s with readyDraws := s.readyDraws.tail, drawCount := s.readyDrawn.drawCount } := by
  unfold State.readyDrawn
  split
  next hdraws => rw [hdraws]; rfl
  next hdraws => simp [hdraws]

theorem readyDrawn_of_cons {ready : Bool} {later : List Bool} (hdraws : s.readyDraws = ready :: later) :
    s.readyDrawn = { s with readyDraws := later } := by
  rw [State.readyDrawn, hdraws]

theorem uartReady_of_cons {ready : Bool} {later : List Bool} (hdraws : s.readyDraws = ready :: later) :
    s.uartReady = ready := by
  rw [State.uartReady, hdraws]

theorem exec_writeByte_of_ready (hphase : s.isrPhase = .none) (hsending : s.txPhase = .type ∨ s.txPhase = .data)
    (hready : s.uartReady = true) : exec .writeByte s = transmitByte s.readyDrawn := by
  simp [exec, execWriteByte, hphase, hsending, hready]

theorem exec_writeByte_of_busy (hphase : s.isrPhase = .none) (hsending : s.txPhase = .type ∨ s.txPhase = .data)
    (hready : s.uartReady = false) : exec .writeByte s = .next s.readyDrawn := by
  simp [exec, execWriteByte, hphase, hsending, hready]

/-- R156 for the type byte. -/
theorem exec_writeByte_of_type (hphase : s.isrPhase = .none) (htx : s.txPhase = .type) (hready : s.uartReady = true) :
    exec .writeByte s = .next { s.readyDrawn with
      trace := s.trace ++ [.txByte s.txType], txPhase := if s.txLen = 0 then .done else .data } := by
  rw [exec_writeByte_of_ready hphase (.inl htx) hready, transmitByte_type (by simpa using htx)]
  simp [State.emit]

/-- R156 for a byte of the data. -/
theorem exec_writeByte_of_data (hphase : s.isrPhase = .none) (htx : s.txPhase = .data) (hready : s.uartReady = true)
    (hbyte : s.txData[s.txIdx.toNat]? = some b) :
    exec .writeByte s = .next { s.readyDrawn with
      trace := s.trace ++ [.txByte b], txIdx := s.txIdx + 1
      txPhase := if s.txIdx + 1 = s.txLen then .done else .data } := by
  rw [exec_writeByte_of_ready hphase (.inr htx) hready,
    transmitByte_data (b := b) (by simpa using htx) (by simpa using hbyte)]
  simp [State.emit]

theorem exec_writeEnd_of_done (hphase : s.isrPhase = .none) (htx : s.txPhase = .done) :
    exec .writeEnd s = .next { s with
      devWake := false, trace := s.trace ++ [.devWake false, .writeReturn s.txLen], txPhase := .idle } := by
  simp [exec, execWriteEnd, hphase, htx, State.setDevWake, State.emit]

/-- Settles O14. -/
theorem writeBeginCapturesTheFrame : Obligations.WriteBeginCapturesTheFrame := by
  refine fun type length data => ⟨fun hlength => ⟨fun rest => ?_, fun s => exec_writeBegin_of_ready⟩,
    decode_writeBegin_of_short⟩
  exact decodeReadsBackEveryOperation (.writeBegin type length data) rest rfl (by simpa [Instr.wf] using hlength)

/-- Settles O15. -/
theorem writeBeforeReadyRaisesFault : Obligations.WriteBeforeReadyRaisesFault :=
  fun _ _ _ _ => exec_writeBegin_of_notReady

/-- Settles O16. -/
theorem writeByteTransmitsOneByte : Obligations.WriteByteTransmitsOneByte :=
  ⟨fun _ => exec_writeByte_of_type, fun _ _ => exec_writeByte_of_data⟩

/-- Settles O17. -/
theorem writeByteWaitsForTheUart : Obligations.WriteByteWaitsForTheUart :=
  fun s hphase hsending hready => ⟨exec_writeByte_of_busy hphase hsending hready, readyDrawn_eq s⟩

/-- Settles O18. -/
theorem writeEndReturnsTheLength : Obligations.WriteEndReturnsTheLength :=
  ⟨hasTag_of_encode rfl rfl rfl, fun _ => exec_writeEnd_of_done⟩

/-! ## A whole write -/

/-- A write whose type byte is on the line and whose data bytes `left` are still to be sent (R156). -/
structure DataLeft (left : List Byte) (s : State) : Prop where
  noHandler : s.isrPhase = .none
  phase : s.txPhase = if s.txIdx = s.txLen then .done else .data
  bytes : s.txData.drop s.txIdx.toNat = left
  count : s.txIdx.toNat + left.length = s.txLen.toNat

/-- The state after one more data byte was sent, with the answers `later` of the UART still unused. -/
def State.dataSent (b : Byte) (later : List Bool) (s : State) : State :=
  { s with
    trace := s.trace ++ [.txByte b], txIdx := s.txIdx + 1, readyDraws := later
    txPhase := if s.txIdx + 1 = s.txLen then .done else .data }

theorem DataLeft.exec_writeByte {left : List Byte} {later : List Bool} (hleft : DataLeft (b :: left) s)
    (hdraws : s.readyDraws = true :: later) : exec .writeByte s = .next (s.dataSent b later) := by
  have hcount := hleft.count
  rw [List.length_cons] at hcount
  have hnotDone : s.txIdx ≠ s.txLen := fun heq => by rw [heq] at hcount; omega
  have hbyte : s.txData[s.txIdx.toNat]? = some b := by
    rw [← List.head?_drop, hleft.bytes, List.head?_cons]
  rw [exec_writeByte_of_data hleft.noHandler (by rw [hleft.phase, if_neg hnotDone]) (uartReady_of_cons hdraws) hbyte,
    readyDrawn_of_cons hdraws]
  rfl

theorem DataLeft.dataSent {left : List Byte} (hleft : DataLeft (b :: left) s) (later : List Bool) :
    DataLeft left (s.dataSent b later) := by
  have hcount := hleft.count
  rw [List.length_cons] at hcount
  have hsucc : (s.txIdx + 1).toNat = s.txIdx.toNat + 1 := by
    have hbound := s.txLen.isLt
    bv_omega
  have hbytes : s.txData.drop (s.txIdx + 1).toNat = left := by
    rw [hsucc, ← List.tail_drop, hleft.bytes, List.tail_cons]
  have hleftCount : (s.txIdx + 1).toNat + left.length = s.txLen.toNat := by omega
  exact ⟨hleft.noHandler, rfl, hbytes, hleftCount⟩

/-- R156: the data bytes that are left go out in index order, and `tx_phase` is `TX_DONE` behind the last. -/
theorem runOps_dataBytes {left : List Byte} {later : List Bool} (hleft : DataLeft left s)
    (hdraws : s.readyDraws = List.replicate left.length true ++ later) :
    runOps (List.replicate left.length .writeByte) s = .next { s with
      trace := s.trace ++ left.map .txByte, txIdx := s.txLen, readyDraws := later, txPhase := .done } := by
  induction left generalizing s with
  | nil =>
    have hdone : s.txIdx = s.txLen := BitVec.eq_of_toNat_eq hleft.count
    have hphase : s.txPhase = .done := by rw [hleft.phase, if_pos hdone]
    have hlater : s.readyDraws = later := hdraws
    rw [← hphase, ← hlater, List.map_nil, List.append_nil]
    exact congrArg (fun idx => (.next { s with txIdx := idx } : Result)) hdone
  | cons b left ih =>
    rw [List.length_cons, List.replicate_succ, List.cons_append] at hdraws
    rw [List.length_cons, List.replicate_succ, runOps, hleft.exec_writeByte hdraws, andThen_next,
      ih (hleft.dataSent _) rfl]
    simp [State.dataSent]

/-- The state after the type byte and all the data of a write were sent, with the answers `later` of the UART still
unused. -/
def State.frameSent (later : List Bool) (s : State) : State :=
  { s with
    trace := s.trace ++ (s.txType :: s.txData).map .txByte, txIdx := s.txLen, readyDraws := later, txPhase := .done }

/-- R155, R156: the type byte of a write goes out before any byte of its data. -/
theorem runOps_frameBytes {later : List Bool} (hphase : s.isrPhase = .none) (htx : s.txPhase = .type)
    (hidx : s.txIdx = 0) (hlength : s.txData.length = s.txLen.toNat)
    (hdraws : s.readyDraws = List.replicate (s.txData.length + 1) true ++ later) :
    runOps (List.replicate (s.txData.length + 1) .writeByte) s = .next (s.frameSent later) := by
  rw [List.replicate_succ, List.cons_append] at hdraws
  rw [List.replicate_succ, runOps, exec_writeByte_of_type hphase htx (uartReady_of_cons hdraws), andThen_next,
    readyDrawn_of_cons hdraws, runOps_dataBytes (left := s.txData) (later := later)]
  · simp [State.frameSent]
  · exact ⟨hphase, by simp only [hidx]; exact if_congr eq_comm rfl rfl, by simp [hidx], by simp [hidx, hlength]⟩
  · rfl

/-- Settles O19: `WRITE_BEGIN`, the type byte and the data bytes, `WRITE_END`. -/
theorem completedWriteSendsTheWholeFrame : Obligations.CompletedWriteSendsTheWholeFrame := by
  intro s type length data later hphase hinit htx hlength hdraws
  rw [Nat.add_comm] at hdraws ⊢
  have hframe : runOps (List.replicate (data.length + 1) .writeByte) (s.writeBegun type length data) =
      .next ((s.writeBegun type length data).frameSent later) :=
    runOps_frameBytes hphase rfl rfl hlength hdraws
  have hend : exec .writeEnd ((s.writeBegun type length data).frameSent later) = _ := exec_writeEnd_of_done hphase rfl
  rw [runOps, exec_writeBegin_of_ready hphase hinit htx, andThen_next, runOps_append, hframe, andThen_next, runOps,
    hend, andThen_next]
  simp [runOps, State.frameSent, State.writeBegun, State.setDevWake, State.emit, htx]

/-! ## The handlers -/

theorem exec_rxirqEnter_of_byte (hphase : s.isrPhase = .none) (harmed : s.rxIrqArmed = true) (hfifo : s.rxFifo ≠ []) :
    exec .rxirqEnter s = .next (s.enterHandler .rx) := by
  simp [exec, execRxirqEnter, State.rxRequest, hphase, harmed, hfifo]

/-- R163: with no byte available the entry is the one ENV draws. -/
theorem exec_rxirqEnter_of_spurious (hphase : s.isrPhase = .none) (harmed : s.rxIrqArmed = true)
    (hfifo : s.rxFifo = []) (hspurious : s.spurious = true) :
    exec .rxirqEnter s = .next (s.spuriousDrawn.enterHandler .rx) := by
  simp [exec, execRxirqEnter, State.rxRequest, hphase, harmed, hfifo, hspurious]

theorem enterHandler_spuriousDrawn (s : State) :
    s.spuriousDrawn.enterHandler .rx = { s.spuriousDrawn with
      devWake := true, trace := s.trace ++ [.devWake true], isrPhase := .rx } := by
  rw [← spuriousDrawn_trace]
  rfl

theorem exec_rxirqExit_of_drained (hphase : s.isrPhase = .rx) (hfifo : s.rxFifo = []) :
    exec .rxirqExit s = .next s.leaveHandler := by
  simp [exec, execRxirqExit, hphase, hfifo]

theorem exec_rxirqExit_of_byte (hfifo : s.rxFifo ≠ []) : exec .rxirqExit s = .next s := by
  simp [exec, execRxirqExit, hfifo, noStep]

theorem exec_hostwakeFall_of_pending (hphase : s.isrPhase = .none) (hpending : s.hwPending = true) :
    exec .hostwakeFall s =
      .next (State.enterHandler .hostWake (State.takeSleepLock { s with hwPending := false })) := by
  simp [exec, execHostwakeFall, State.hostWakeRequest, hphase, hpending]

theorem exec_hostwakeExit_of_drained (hphase : s.isrPhase = .hostWake) (hfifo : s.rxFifo = []) :
    exec .hostwakeExit s = .next s.leaveHandler.dropSleepLock := by
  simp [exec, execHostwakeExit, hphase, hfifo]

/-- Settles O20. -/
theorem rxirqEnterAssertsDeviceWake : Obligations.RxirqEnterAssertsDeviceWake :=
  ⟨hasTag_of_encode rfl rfl rfl, fun _ => exec_rxirqEnter_of_byte, fun s hphase harmed hfifo hspurious =>
    enterHandler_spuriousDrawn s ▸ exec_rxirqEnter_of_spurious hphase harmed hfifo hspurious⟩

/-- Settles O21: the entry leaves the FIFO empty, so the exit is enabled and takes back what the entry has set. -/
theorem spuriousEntryOnlyTogglesDeviceWake : Obligations.SpuriousEntryOnlyTogglesDeviceWake := by
  intro s hphase harmed hfifo hspurious
  have hexit : exec .rxirqExit (s.spuriousDrawn.enterHandler .rx) =
      .next (s.spuriousDrawn.enterHandler .rx).leaveHandler :=
    exec_rxirqExit_of_drained rfl (by simpa using hfifo)
  rw [runOps, exec_rxirqEnter_of_spurious hphase harmed hfifo hspurious, andThen_next, runOps, hexit, andThen_next]
  simp [runOps, State.leaveHandler, State.enterHandler, State.setDevWake, State.emit, ← hphase]

/-- Settles O22. -/
theorem rxirqExitDeassertsDeviceWake : Obligations.RxirqExitDeassertsDeviceWake := by
  refine ⟨hasTag_of_encode rfl rfl rfl, fun _ => exec_rxirqExit_of_drained, fun s t hphase hfifo hstep => ?_⟩
  obtain rfl : s = t := Host.Outcome.next.inj ((exec_rxirqExit_of_byte hfifo).symm.trans hstep)
  exact hphase

/-- Settles O23. -/
theorem hostwakeFallTakesTheSleepLock : Obligations.HostwakeFallTakesTheSleepLock := by
  refine ⟨hasTag_of_encode rfl rfl rfl, fun s hphase hpending => ?_⟩
  rw [exec_hostwakeFall_of_pending hphase hpending]
  simp [State.enterHandler, State.takeSleepLock, State.setDevWake, State.emit]

/-- Settles O24. -/
theorem hostwakeExitReleasesTheSleepLock : Obligations.HostwakeExitReleasesTheSleepLock := by
  refine ⟨hasTag_of_encode rfl rfl rfl, fun s hphase hfifo => ?_⟩
  rw [exec_hostwakeExit_of_drained hphase hfifo]
  simp [State.leaveHandler, State.dropSleepLock, State.setDevWake, State.emit]

/-! ## The environment -/

/-- Settles O25. -/
theorem arrivingByteJoinsTheFifo : Obligations.ArrivingByteJoinsTheFifo := by
  refine ⟨fun b rest => decodeReadsBackEveryOperation (.envRxArrive b) rest rfl rfl, fun s b harmed => ?_⟩
  simp [exec, execEnvRxArrive, harmed]

/-- Settles O26. -/
theorem hostwakeEdgeSetsThePendingBit : Obligations.HostwakeEdgeSetsThePendingBit := by
  refine ⟨hasTag_of_encode rfl rfl rfl, fun s => ⟨fun harmed => ?_, fun harmed => ?_⟩⟩ <;>
    simp [exec, execEnvHostwakeEdge, harmed]

end Sys2Proof.Machine
end

section
/-! PROOFS. The statements of spec/60_exceptions.md on handlers: none is entered and THREAD stands still while one runs
(R210), and a step of ISR leaves THREAD's part of the state as it is (R211). -/

namespace Sys2Proof.Machine

variable {s t : State} {i : Instr}

/-! ## While a handler runs -/

/-- R210, log 2: each operation of THREAD but `TERMINATE`, which writes nothing anyway, is guarded by `isr_phase`. -/
theorem exec_thread_of_handler (hagent : i.agent = some .thread) (hphase : s.isrPhase ≠ .none) :
    exec i s = .next s := by
  have hguard : ¬ s.threadMayStep = true := mt threadMayStep_iff.1 hphase
  cases i with
  | init | writeBegin => exact if_neg hguard
  | initSettle | writeByte | writeEnd => exact if_neg (not_and_of_not_left _ hguard)
  | terminate => rfl
  | _ => cases hagent

theorem exec_rxirqEnter_of_handler (hphase : s.isrPhase ≠ .none) : exec .rxirqEnter s = .next s :=
  if_neg (not_and_of_not_left _ (mt noHandler_iff.1 hphase))

theorem exec_hostwakeFall_of_handler (hphase : s.isrPhase ≠ .none) : exec .hostwakeFall s = .next s :=
  if_neg (not_and_of_not_left _ (mt noHandler_iff.1 hphase))

/-- Settles O47. -/
theorem noThreadStepAndNoEntryInsideAHandler : Obligations.NoThreadStepAndNoEntryInsideAHandler := by
  rintro i s hphase (hagent | rfl | rfl)
  · exact exec_thread_of_handler hagent hphase
  · exact exec_rxirqEnter_of_handler hphase
  · exact exec_hostwakeFall_of_handler hphase

/-! ## THREAD's part of the state -/

/-- R163: the draw of a spurious entry is nothing to THREAD. -/
theorem threadPart_spuriousDrawn (s : State) : s.spuriousDrawn.threadPart = s.threadPart := by
  simp [State.threadPart]

/-- R211: nothing that reception may write is an element of THREAD. -/
theorem ReceptionStep.threadPart_eq (h : ReceptionStep s t) : t.threadPart = s.threadPart :=
  (congrArg State.threadPart h.kept :)

/-- R211: the entry and the exit of a handler write none of THREAD's elements. -/
theorem effect_keeps_threadPart (hagent : i.agent = some .isr) (heff : Effect i s t) : t.threadPart = s.threadPart := by
  cases heff with
  | noStep | rxEntered | rxExited | hostWakeEntered | hostWakeExited => rfl
  | rxEnteredSpuriously | notEntered => exact threadPart_spuriousDrawn s
  | _ => cases hagent

/-- Settles O48: `RESET` is no step of ISR; the others are steps of reception or effects. -/
theorem handlersLeaveThreadStateAlone : Obligations.HandlersLeaveThreadStateAlone := by
  intro i s t hagent hstep
  obtain ⟨rfl, -⟩ | ⟨-, hreception⟩ | heff := exec_next_cases hstep
  · cases hagent
  · exact hreception.threadPart_eq
  · exact effect_keeps_threadPart hagent heff

end Sys2Proof.Machine
end

section
/-! PROOFS. The statements of spec/70_reset_and_hazards.md: the values `RESET` leaves in the elements (R230, R231), and
what it keeps. -/

namespace Sys2Proof.Machine

variable {t : State}

/-! ## What RESET does -/

/-- R231: to free a held buffer is to emit an event, and nothing else. -/
theorem freeHeld_eq (s : State) : s.freeHeld = { s with trace := s.freeHeld.trace } := by
  unfold State.freeHeld
  split <;> rfl

/-- R231: `RESET` completes from every state; besides the elements it resets it writes the trace, by the `Free` of a
held buffer. -/
theorem exec_reset (s : State) : exec .reset s = .next { s.resetElements with trace := s.freeHeld.trace } :=
  congrArg (Host.Outcome.next ∘ State.resetElements) (freeHeld_eq s)

/-! ## The reset values -/

/-- R230: the first reset and a later one leave the same values. -/
theorem resetElements_reset : State.reset.resetElements = State.reset := rfl

/-- R230: the state after any reset, the first one or a `RESET`, comes from resetting the elements of some state. -/
theorem eq_resetElements_of_reset (hreset : t = State.reset ∨ ∃ s, exec .reset s = .next t) :
    ∃ u : State, t = u.resetElements := by
  obtain rfl | ⟨s, hstep⟩ := hreset
  · exact ⟨State.reset, resetElements_reset.symm⟩
  · exact ⟨s.freeHeld, (Host.Outcome.next.inj hstep).symm⟩

/-- Settles O8: the values of the table are those that `resetElements` writes, whatever the state was. -/
theorem resetValuesOfEveryElement : Obligations.ResetValuesOfEveryElement := by
  refine ⟨fun t hreset => ?_, ⟨rfl, rfl⟩, fun s => ⟨_, exec_reset s, rfl, freeHeld_trace s⟩⟩
  obtain ⟨u, rfl⟩ := eq_resetElements_of_reset hreset
  and_intros <;> rfl

/-- Settles O9: neither the `Free` nor the reset of the elements reaches the model's own fields. -/
theorem resetKeepsTheScriptAndTheDraws : Obligations.ResetKeepsTheScriptAndTheDraws :=
  fun s => ⟨_, exec_reset s, rfl, rfl, rfl, rfl, rfl⟩

end Sys2Proof.Machine
end

section
/-! PROOFS. The statement on operations that are not enabled (log 2, log 5): what each does when its
enabling condition of R151 to R167 fails. -/

namespace Sys2Proof.Machine

variable {s : State}

/-! ## THREAD -/

theorem exec_initSettle_of_notSettling (hinit : s.initState ≠ .settling) : exec .initSettle s = .next s :=
  if_neg (not_and_of_not_right _ hinit)

/-- R155: `WRITE_BEGIN` is not enabled while a write is in progress, whether or not a handler runs. -/
theorem exec_writeBegin_of_writing {type : Byte} {length : Half} {data : List Byte} (hinit : s.initState = .ready)
    (htx : s.txPhase ≠ .idle) : exec (.writeBegin type length data) s = .next s := by
  by_cases hphase : s.isrPhase = .none
  · simp [exec, execWriteBegin, hphase, hinit, htx, noStep]
  · exact exec_writeBegin_of_handler hphase

/-- R156: the answer of the UART is not drawn either. -/
theorem exec_writeByte_of_notSending (htype : s.txPhase ≠ .type) (hdata : s.txPhase ≠ .data) :
    exec .writeByte s = .next s :=
  if_neg (not_and_of_not_right _ (mt sending_iff.1 (not_or_intro htype hdata)))

theorem exec_writeEnd_of_notDone (htx : s.txPhase ≠ .done) : exec .writeEnd s = .next s :=
  if_neg (not_and_of_not_right _ htx)

/-! ## The handlers and the environment -/

theorem exec_rxirqEnter_of_notArmed (harmed : s.rxIrqArmed = false) : exec .rxirqEnter s = .next s :=
  if_neg (not_and_of_not_right _ (Bool.eq_false_iff.1 harmed))

/-- R163, log 5: with no byte available ENV is asked for a spurious entry; when it draws none, the draw is used. -/
theorem exec_rxirqEnter_of_notSpurious (hphase : s.isrPhase = .none) (harmed : s.rxIrqArmed = true)
    (hfifo : s.rxFifo = []) (hspurious : s.spurious = false) : exec .rxirqEnter s = .next s.spuriousDrawn := by
  simp [exec, execRxirqEnter, State.rxRequest, hphase, harmed, hfifo, hspurious]

theorem exec_rxirqExit_of_otherPhase (hphase : s.isrPhase ≠ .rx) : exec .rxirqExit s = .next s :=
  if_neg (not_and_of_not_left _ hphase)

theorem exec_hostwakeFall_of_notPending (hpending : s.hwPending = false) : exec .hostwakeFall s = .next s :=
  if_neg (not_and_of_not_right _ (Bool.eq_false_iff.1 hpending))

theorem exec_hostwakeExit_of_otherPhase (hphase : s.isrPhase ≠ .hostWake) : exec .hostwakeExit s = .next s :=
  if_neg (not_and_of_not_left _ hphase)

/-- R166: the drain is not over while a byte is available. -/
theorem exec_hostwakeExit_of_byte (hfifo : s.rxFifo ≠ []) : exec .hostwakeExit s = .next s :=
  if_neg (not_and_of_not_right _ (mt List.isEmpty_iff.1 hfifo))

theorem exec_envRxArrive_of_notArmed (b : Byte) (harmed : s.rxIrqArmed = false) :
    exec (.envRxArrive b) s = .next s :=
  if_neg (Bool.eq_false_iff.1 harmed)

/-- Settles O46. -/
theorem disabledOperationsTakeNoStep : Obligations.DisabledOperationsTakeNoStep := fun _ =>
  ⟨exec_initSettle_of_notSettling,
    fun _ _ _ => exec_writeBegin_of_writing,
    exec_writeByte_of_notSending,
    exec_writeEnd_of_notDone,
    fun harmed => ⟨exec_rxirqEnter_of_notArmed harmed, fun b => exec_envRxArrive_of_notArmed b harmed⟩,
    exec_rxirqEnter_of_notSpurious,
    exec_rxByte_disabled,
    fun hdisabled => hdisabled.elim exec_rxirqExit_of_otherPhase exec_rxirqExit_of_byte,
    exec_hostwakeFall_of_notPending,
    fun hdisabled => hdisabled.elim exec_hostwakeExit_of_otherPhase exec_hostwakeExit_of_byte⟩

end Sys2Proof.Machine
end
